-- ==== Sys2Proof/Word.lean ====
section
/-! DEFINITION. The word types of the block: command words (rule R100), bytes and register
addresses (rules R60, R65), bus addresses (rule R60), tick values (rule R62), and the fixed
counts of rule R7. -/

namespace Sys2Proof

/-- A command word, `cmd[63:0]` (rule R100, CMD_W = 64). -/
abbrev Word := BitVec 64

/-- A byte of data (rule R7, DATA_W = 8). -/
abbrev Byte := BitVec 8

/-- An address in the register space of the device (rule R60, REGADDR_W = 8). -/
abbrev RegAddr := BitVec 8

/-- A bus address (rule R60, BUSADDR_W = 7). -/
abbrev BusAddr := BitVec 7

/-- A tick within the 4096-tick period (rules R7, R180, TICK_W = 12). -/
abbrev Tick := BitVec 12

/-- How many channels the device has (rule R7, N_CHANNELS). -/
abbrev numChannels : Nat := 16

/-- How many registers one channel has (rule R7, CH_STRIDE). -/
abbrev channelStride : Nat := 4

/-- How many registers the device's register space has (rule R60: 0x00 to 0xFF). -/
abbrev registerCount : Nat := 256

end Sys2Proof
end

