-- ==== Sys2Proof/Config.lean ====
section
/-! DEFINITION. The configuration record of rule R7, the choices that belong to the environment
(rules R80, R84, R85), and the free values: constants without a body, about which nothing can be
proved. -/

namespace Sys2Proof

/-- The parameters of rule R7. A model is a function of them (rule R17); the State holds one such
record, which no step changes (log entry 1). The defaults marked GK in rule R7 are the
test vectors' values, not statements of the source (log entry 2). -/
structure Config where
  /-- OSC_CLOCK_HZ. -/
  oscClockHz : Nat := 25000000
  /-- MODE1_ADDR. -/
  mode1Addr : RegAddr := 0x00
  /-- MODE2_ADDR. -/
  mode2Addr : RegAddr := 0x01
  /-- PRESCALE_ADDR. -/
  prescaleAddr : RegAddr := 0xFE
  /-- CH_BASE_ADDR. -/
  chBaseAddr : RegAddr := 0x06
  /-- SLEEP_MASK. -/
  sleepMask : Byte := 0x10
  /-- RESTART_MASK. -/
  restartMask : Byte := 0x80
  /-- PRESCALE_MIN. -/
  prescaleMin : Byte := 0x03
  /-- PRESCALE_MAX. -/
  prescaleMax : Byte := 0xFF
  /-- T_SETTLE_US. -/
  tSettleUs : Nat := 500
  /-- DEVICE_ADDR, an environment parameter. -/
  deviceAddr : BusAddr := 0x40
  /-- EXTERNAL_MASTER, an environment parameter (rule R84). -/
  externalMaster : Bool := false
  deriving DecidableEq, Repr, Inhabited

/-- A transaction of the second bus master with the reference device (rule R84). It is not an event of
the block's trace. -/
inductive ForeignTxn where
  | write (r : RegAddr) (v : Byte)
  | read (r : RegAddr)
  deriving DecidableEq, Repr, Inhabited

/-- One change the environment makes to the device's registers: `value = none` leaves the register
with no known value (rule R41, 93_implementation_defined.md U5). -/
structure CellChange where
  reg : RegAddr
  value : Option Byte
  deriving DecidableEq, Repr, Inhabited

/-- What one transaction of the second bus master does (rule R84; log entry 9). `device` is a transaction
with the reference device, by the rules of the block's own writes. `free` is one with any other device:
the spec leaves open what a read does besides (rule R67), what a write to PRESCALE outside sleep mode
leaves there (rule R36, U2), and what any register then holds (U6, U9), so the registers change as the
environment says. -/
inductive ForeignAct where
  | device (t : ForeignTxn)
  | free (changes : List CellChange)
  deriving DecidableEq, Repr, Inhabited

/-- How the environment answers one request of the block. `device` is the reference device of rule
R81. `ok` and `fail` are the free answers of rule R80: any answer and any byte (U12, U13). The changes
are what becomes of the registers whose content the spec leaves open after that answer (rule R67, U2,
U5, U9; Machine/Environment.lean says which those are); changes of other registers have no effect. -/
inductive Reply where
  | device
  | ok (data : Byte) (changes : List CellChange)
  | fail (changes : List CellChange)
  deriving DecidableEq, Repr, Inhabited

/-- One turn of the environment: first the second master's transactions (rule R84), then the answer
to the block's outstanding request. `reply = none` means that the request is not answered, or the
delay does not end, within this step (rule R85): the command stays running. -/
structure EnvTurn where
  foreign : List ForeignAct
  reply : Option Reply
  deriving DecidableEq, Repr, Inhabited

/-- Who answers when no scripted turn is left: anybody at all (rule R80, normative), or the
reference device (rule R81). -/
inductive Answering where
  | unconstrained
  | referenceDevice
  deriving DecidableEq, Repr, Inhabited

/-- FREE VALUE: the whole turn of the unconstrained environment at its `n`-th request (rule R80;
log entry 5). -/
opaque Config.freeTurn : Nat → EnvTurn

/-- FREE VALUE: what the second master does before the reference device's answer to the `n`-th
request, where EXTERNAL_MASTER is true (rule R84; log entry 9). -/
opaque Config.freeForeign : Nat → List ForeignTxn

/-- FREE VALUE: the byte the reference device draws when a register without a value is read at the
`n`-th request (rules R41, R81; log entry 7). -/
opaque Config.freeByte : Nat → Byte

/-- FREE VALUE: whether a request at the reference device that `rst` left outstanding had taken effect
(rule R242, U15; log entry 11). -/
opaque Config.freeTaken : Nat → Bool

/-- FREE VALUE: `oldmode` after a hardware reset (rule R40, "unspecified"; log entry 4). -/
opaque Config.freeOldmode : Nat → Byte

/-- FREE VALUE: `presc` after a hardware reset (rule R40, "unspecified"; log entry 4). -/
opaque Config.freePresc : Nat → Byte

end Sys2Proof
end

