-- ==== Sys2Proof/Asm.lean ====
section
/-! DEFINITION. The textual form of a command as abstract syntax (rules R114, R115): what stands
on one line, with its numbers still unbounded. WellFormed.lean has the range checks, Decode.lean
the assembler. -/

namespace Sys2Proof

/-- The symbolic register names of rule R115, `c` being the channel. -/
inductive RegName where
  | mode1
  | mode2
  | prescale
  | chOnL (c : Nat)
  | chOnH (c : Nat)
  | chOffL (c : Nat)
  | chOffH (c : Nat)
  deriving DecidableEq, Repr

/-- A register operand: a number, or one of the names of rule R115. -/
inductive RegOperand where
  | number (n : Nat)
  | name (r : RegName)
  deriving DecidableEq, Repr

/-- One line of rule R114. The frequency is the decimal number `digits / 10^decimals` in Hz. -/
inductive AsmLine where
  | openBus (a : Nat)
  | wrreg (r : RegOperand) (v : Nat)
  | rdreg (r : RegOperand)
  | reset
  | setup (a : Nat)
  | setfreq (digits decimals : Nat) (rs : Bool)
  | setch (ch on off : Nat)
  deriving DecidableEq, Repr

end Sys2Proof
end

