-- ==== Sys2Proof/Syntax.lean ====
section
/-! DEFINITION. The command set (rule R2): one constructor per row of the opcode table, its
operands at the widths of rules R103 to R108. -/

namespace Sys2Proof

/-- The seven commands of rule R109. Each operand has exactly the width of its field, so every
term of this type is a legal encoding; `ch` is 8 bits wide although only 0 to 15 name a channel,
and `f` may be 0, because rules R107 and R108 make those legal encodings that the command itself
refuses. -/
inductive Instr where
  /-- OPEN, format A (rules R104, R131): claim bus address `a`. -/
  | openBus (a : BusAddr)
  /-- WRREG, format W (rules R105, R135): write `v` to device register `r`. -/
  | wrreg (r : RegAddr) (v : Byte)
  /-- RDREG, format R (rules R106, R139): read device register `r`. -/
  | rdreg (r : RegAddr)
  /-- RESET, format N (rules R103, R151): write 0x00 to MODE1. -/
  | reset
  /-- SETUP, format A (rules R104, R155): claim `a`, then write 0x00 to MODE1. -/
  | setup (a : BusAddr)
  /-- SETFREQ, format F (rules R107, R174): `f` is in units of 1/16 Hz; `rs` asks for the
  restart write. -/
  | setfreq (rs : Bool) (f : BitVec 32)
  /-- SETCH, format C (rules R108, R181): on-tick and off-tick of channel `ch`. -/
  | setch (ch : Byte) (on off : Tick)
  deriving DecidableEq, Repr

end Sys2Proof
end

