-- ==== Sys2Proof/WellFormed.lean ====
section
/-! DEFINITION. Well-formedness: of a configuration (rule R8), of a line of the textual syntax
(rules R114, R115), and of the device's register contents as data. A term of Instr needs no check:
its operands have the widths of their fields. -/

namespace Sys2Proof

/-- Exactly one bit of an 8-bit mask is set (rule R8). -/
def oneBitSet (m : Byte) : Bool :=
  (List.range 8).countP (fun i => m.getLsbD i) == 1

/-- `r` lies in the channel block `[CH_BASE_ADDR, CH_BASE_ADDR + 63]` (rules R8, R37). -/
def Config.inChannelBlock (c : Config) (r : RegAddr) : Bool :=
  c.chBaseAddr.toNat ≤ r.toNat && r.toNat ≤ c.chBaseAddr.toNat + 63

/-- `OSC_CLOCK_HZ > 0` (rule R8). -/
def Config.oscOk (c : Config) : Bool := 0 < c.oscClockHz

/-- `T_SETTLE_US >= 500` (rule R8, the source's own bound). -/
def Config.settleOk (c : Config) : Bool := 500 ≤ c.tSettleUs

/-- `PRESCALE_MIN <= PRESCALE_MAX <= 0xFF` (rule R8); the second half holds of every byte. -/
def Config.prescaleRangeOk (c : Config) : Bool := c.prescaleMin.toNat ≤ c.prescaleMax.toNat

/-- The two MODE1 masks are single bits and differ (rule R8). -/
def Config.masksOk (c : Config) : Bool :=
  oneBitSet c.sleepMask && oneBitSet c.restartMask && c.sleepMask != c.restartMask

/-- The channel block does not wrap the register space (rule R8). -/
def Config.channelBlockOk (c : Config) : Bool :=
  c.chBaseAddr.toNat + channelStride * numChannels - 1 ≤ 0xFF

/-- MODE1, MODE2 and PRESCALE stand at three different addresses (rule R8). -/
def Config.namedDistinct (c : Config) : Bool :=
  c.mode1Addr != c.mode2Addr && c.mode1Addr != c.prescaleAddr && c.mode2Addr != c.prescaleAddr

/-- None of the three lies in the channel block (rule R8). -/
def Config.namedOutsideChannels (c : Config) : Bool :=
  !c.inChannelBlock c.mode1Addr && !c.inChannelBlock c.mode2Addr &&
    !c.inChannelBlock c.prescaleAddr

/-- Rule R8: the conditions together. An ill-formed configuration is refused (U19). -/
def Config.wf (c : Config) : Bool :=
  c.oscOk && c.settleOk && c.prescaleRangeOk && c.masksOk && c.channelBlockOk &&
    c.namedDistinct && c.namedOutsideChannels

/-- The channel a symbolic name speaks of is one of the 16 (rule R115). -/
def RegName.wf : RegName → Bool
  | .mode1 | .mode2 | .prescale => true
  | .chOnL c | .chOnH c | .chOffL c | .chOffH c => c < numChannels

/-- A register number fits its 8-bit field; a name is one of rule R115's. -/
def RegOperand.wf : RegOperand → Bool
  | .number n => n < 2 ^ 8
  | .name r => r.wf

/-- Rule R114: `F = 16*f` must be a natural number below 2^32; the assembler rejects an `f` that is
not a multiple of 1/16. -/
def frequencyOk (digits decimals : Nat) : Bool :=
  16 * digits % 10 ^ decimals == 0 && 16 * digits / 10 ^ decimals < 2 ^ 32

/-- The range checks of rule R114, operand by operand. -/
def AsmLine.wf : AsmLine → Bool
  | .openBus a => a < 2 ^ 7
  | .wrreg r v => r.wf && v < 2 ^ 8
  | .rdreg r => r.wf
  | .reset => true
  | .setup a => a < 2 ^ 7
  | .setfreq digits decimals _ => frequencyOk digits decimals
  | .setch ch on off => ch < 2 ^ 8 && on < 2 ^ 12 && off < 2 ^ 12

/-- What the registers of the device are known to hold: pairs of a register address and a byte. A
register that is not listed has no value ("indeterminate", rules R41, R81). -/
abbrev Memory := List Host.Cell

/-- The one form in which a memory is written down: addresses strictly rising and inside the
register space of rule R60. An unlisted register reads as no value, so no entry can equal it. -/
abbrev Memory.wf (m : Memory) : Prop :=
  m.Pairwise (fun x y => x.1 < y.1) ∧ ∀ x ∈ m, x.1 < registerCount

end Sys2Proof
end

