-- ==== Sys2Proof/Decode.lean ====
section
/-! DEFINITION. The decoder and the encoder, both written from the opcode map of rule R109 and the
formats of rules R103 to R108, the classes of illegal words (rule R111), and the assembler of
rules R114 and R115. -/

namespace Sys2Proof

/-- The rows of the opcode map, in the order of rule R109. -/
inductive Row where
  | rowOpen | rowWrreg | rowRdreg | rowReset | rowSetup | rowSetfreq | rowSetch
  deriving DecidableEq, Repr

/-- All rows, first to last (rule R109). -/
def opcodeMap : List Row :=
  [.rowOpen, .rowWrreg, .rowRdreg, .rowReset, .rowSetup, .rowSetfreq, .rowSetch]

/-- The `match` column of rule R109. -/
def Row.pattern : Row → Word
  | .rowOpen    => 0x0100000000000000
  | .rowWrreg   => 0x0200000000000000
  | .rowRdreg   => 0x0300000000000000
  | .rowReset   => 0x0400000000000000
  | .rowSetup   => 0x0500000000000000
  | .rowSetfreq => 0x0600000000000000
  | .rowSetch   => 0x0700000000000000

/-- The `mask` column of rule R109: the opcode and every must-be-zero bit. -/
def Row.mask : Row → Word
  | .rowOpen    => 0xFFFFFFFFFFFFFF80
  | .rowWrreg   => 0xFFFFFFFFFFFF0000
  | .rowRdreg   => 0xFFFFFFFFFFFF00FF
  | .rowReset   => 0xFFFFFFFFFFFFFFFF
  | .rowSetup   => 0xFFFFFFFFFFFFFF80
  | .rowSetfreq => 0xFFFFFFFE00000000
  | .rowSetch   => 0xFFFFFF00F000F000

/-- A word selects a row when `(w & mask) == match` (rule R109). -/
def Row.selects (o : Row) (w : Word) : Bool := w &&& o.mask == o.pattern

/-- `OPC = cmd[63:56]` (rule R102). -/
def opcodeField (w : Word) : Byte := w.extractLsb' 56 8

/-- The fields of a word under the format of a row (rules R103 to R108, R110). -/
def Row.fields (o : Row) (w : Word) : Instr :=
  match o with
  | .rowOpen    => .openBus (w.extractLsb' 0 7)
  | .rowWrreg   => .wrreg (w.extractLsb' 8 8) (w.extractLsb' 0 8)
  | .rowRdreg   => .rdreg (w.extractLsb' 8 8)
  | .rowReset   => .reset
  | .rowSetup   => .setup (w.extractLsb' 0 7)
  | .rowSetfreq => .setfreq (w.getLsbD 32) (w.extractLsb' 0 32)
  | .rowSetch   => .setch (w.extractLsb' 32 8) (w.extractLsb' 16 12) (w.extractLsb' 0 12)

/-- Rule R113: the first (the only) row the word selects, with its fields; `none` is `illegal`. -/
def decode (w : Word) : Option Instr :=
  (opcodeMap.find? (fun o => o.selects w)).map (fun o => o.fields w)

/-- Why a word is illegal (rule R111). -/
inductive IllegalWord where
  /-- `OPC` is 0x00 or lies in 0x08 to 0xFF. -/
  | reservedOpcode (opc : Byte)
  /-- `OPC` is assigned and a must-be-zero bit of its format is set. -/
  | reservedBitSet (opc : Byte)
  deriving DecidableEq, Repr

/-- Decoding that rejects by name (rules R111, R113). -/
def decodeNamed (w : Word) : Except IllegalWord Instr :=
  match decode w with
  | some i => .ok i
  | none =>
    if opcodeMap.any (fun o => opcodeField o.pattern == opcodeField w)
    then .error (.reservedBitSet (opcodeField w))
    else .error (.reservedOpcode (opcodeField w))

/-- The row of a command (rule R109). -/
def Instr.row : Instr → Row
  | .openBus _   => .rowOpen
  | .wrreg _ _   => .rowWrreg
  | .rdreg _     => .rowRdreg
  | .reset       => .rowReset
  | .setup _     => .rowSetup
  | .setfreq _ _ => .rowSetfreq
  | .setch _ _ _ => .rowSetch

/-- The operand bits of a command at the positions of its format (rules R103 to R108). -/
def Instr.operandBits : Instr → Word
  | .openBus a      => a.setWidth 64
  | .wrreg r v      => r.setWidth 64 <<< 8 ||| v.setWidth 64
  | .rdreg r        => r.setWidth 64 <<< 8
  | .reset          => 0
  | .setup a        => a.setWidth 64
  | .setfreq rs f   => (BitVec.ofBool rs).setWidth 64 <<< 32 ||| f.setWidth 64
  | .setch ch on off => ch.setWidth 64 <<< 32 ||| on.setWidth 64 <<< 16 ||| off.setWidth 64

/-- Rule R113: `encode` ors the fields at their positions into `match`. -/
def encode (i : Instr) : Word := i.row.pattern ||| i.operandBits

/-- The instruction the decoder reads from a word whose bits are numbered as the opcode table
numbers them. A command is one 64-bit value without a byte order (rule R63), so the table's
numbering is the port's own. -/
def decodeTableWord (nbits w : Nat) : Option Instr :=
  if nbits ≤ 64 then decode (BitVec.ofNat 64 (w % 2 ^ nbits)) else none

/-- The address of a named register (rules R115, R68, R69). -/
def RegName.address (c : Config) : RegName → Nat
  | .mode1    => c.mode1Addr.toNat
  | .mode2    => c.mode2Addr.toNat
  | .prescale => c.prescaleAddr.toNat
  | .chOnL n  => c.chBaseAddr.toNat + 4 * n
  | .chOnH n  => c.chBaseAddr.toNat + 4 * n + 1
  | .chOffL n => c.chBaseAddr.toNat + 4 * n + 2
  | .chOffH n => c.chBaseAddr.toNat + 4 * n + 3

/-- The address a register operand stands for (rule R115). -/
def RegOperand.address (c : Config) : RegOperand → RegAddr
  | .number n => BitVec.ofNat 8 n
  | .name r   => BitVec.ofNat 8 (r.address c)

/-- The command a line of text stands for; a line out of range is rejected (rules R114, R115). -/
def assemble (c : Config) (l : AsmLine) : Option Instr :=
  if l.wf then
    some (match l with
      | .openBus a    => .openBus (BitVec.ofNat 7 a)
      | .wrreg r v    => .wrreg (r.address c) (BitVec.ofNat 8 v)
      | .rdreg r      => .rdreg (r.address c)
      | .reset        => .reset
      | .setup a      => .setup (BitVec.ofNat 7 a)
      | .setfreq digits decimals rs =>
          .setfreq rs (BitVec.ofNat 32 (16 * digits / 10 ^ decimals))
      | .setch ch on off =>
          .setch (BitVec.ofNat 8 ch) (BitVec.ofNat 12 on) (BitVec.ofNat 12 off))
  else none

end Sys2Proof
end

