-- ==== Sys2Proof/Machine/State.lean ====
section
/-! DEFINITION. The state of the machine as plain data: the block's registers (rule R20), the inputs
of its host port (rules R101, R240), the environment with the device it holds (rules R16, R80, R81),
and the record of what was observable (rule R13); the reasons a step can stop; and State.reset
(rule R40). -/

namespace Sys2Proof.Machine

/-- The state of the initialization FSM (rule R21). -/
inductive Fsm where
  /-- 0b00: no handle. -/
  | closed
  /-- 0b01: a handle, and no successful reset write since the claim. -/
  | opened
  /-- 0b10: a handle, and the last RESET or SETUP wrote MODE1. -/
  | ready
  /-- 0b11: a SETUP failed. -/
  | fatal
  deriving DecidableEq, Repr

/-- The statuses of rule R201. The codes 0xC to 0xF are never produced, so no constructor stands for
them (U18). -/
inductive Status where
  | ok | busOpenFailed | busWriteFailed | busReadFailed | resetFailed | invalidFrequency
  | invalidChannel | channelSourceUnavailable | illegalCommand | noHandle | notReady | fatal
  deriving DecidableEq, Repr

/-- An answered event of the trace (rule R13). -/
inductive Event where
  /-- `BusClaim(a) -> ok | fail`. -/
  | claim (a : BusAddr) (ok : Bool)
  /-- `MemWrite((a, r), 1, v) -> ok | fail`. -/
  | write (a : BusAddr) (r : RegAddr) (v : Byte) (ok : Bool)
  /-- `MemRead((a, r), 1) -> ok(v)`, or `fail` for `none`. -/
  | read (a : BusAddr) (r : RegAddr) (answer : Option Byte)
  /-- `BusRelease(a)`. -/
  | release (a : BusAddr)
  /-- `Delay(t)`, in microseconds. -/
  | delay (t : Nat)
  deriving DecidableEq, Repr

/-- A response (rules R13, R200). -/
structure Response where
  status : Status
  data : Byte
  deriving DecidableEq, Repr

/-- What the host does at the block's inputs (rules R101, R240). -/
inductive HostInput where
  /-- `cmd_valid` is high with `cmd_word = w`, until the block accepts it. -/
  | offer (w : Word)
  /-- `rst` is high at an edge of `clk`. -/
  | reset
  deriving DecidableEq, Repr

/-- The reference device (rule R81). -/
structure Device where
  /-- The bus address is held by the block (rule R39 a). -/
  claimed : Bool
  /-- The register contents that are known; an unlisted register has no value. -/
  reg : Memory
  /-- A prescale write came outside sleep mode (rule R82); never cleared. -/
  violated : Bool
  deriving DecidableEq, Repr

/-- The environment: the device, and how requests are answered (rules R80, R81, R84, R85). -/
structure Env where
  device : Device
  /-- The turns the environment will take, first one first. -/
  turns : List EnvTurn
  /-- Who answers when `turns` is used up. -/
  answering : Answering
  /-- MODEL'S OWN: how many free values were drawn; the free values of Config are applied to it. -/
  drawn : Nat
  deriving DecidableEq, Repr

/-- The whole state. -/
structure State where
  /-- The parameters of rule R7, fixed for the machine. -/
  cfg : Config
  /-- `fsm` (rule R21). -/
  fsm : Fsm
  /-- `devaddr` (rule R25). -/
  devaddr : BusAddr
  /-- `cmd` (rule R26). -/
  cmd : Word
  /-- `busy` (rule R27). -/
  busy : Bool
  /-- `step`, the index of the next action (rule R27). -/
  step : BitVec 3
  /-- `oldmode` (rule R31). -/
  oldmode : Byte
  /-- `presc` (rule R31). -/
  presc : Byte
  /-- `resp_valid` (rule R32). -/
  respValid : Bool
  /-- `resp_status` (rule R32). -/
  respStatus : Status
  /-- `resp_data` (rule R32). -/
  respData : Byte
  /-- `fatal_code` (rule R33); `ok` is its code 0x0. -/
  fatalCode : Status
  /-- What the host does at `cmd_valid`, `cmd_word` and `rst`, first input first (rules R16, R101,
  R240). It is the world outside: the block has no queue (rule R101). -/
  host : List HostInput
  /-- The environment of rule R16. -/
  env : Env
  /-- The trace so far, oldest event first (rule R13). -/
  trace : List Event
  /-- The responses so far, oldest first (rule R13). -/
  responses : List Response
  deriving DecidableEq, Repr

/-- Why the machine stops with a fault. Both stand for states the sequencer of rules R27 to R30
cannot be in; no run from reset meets one (Safety.lean, State.Inv). -/
inductive Fault where
  /-- Raised by the step when `busy` is 1 and `cmd` is no legal word: rule R213 lets only a decoded
  command start, so the spec gives this no meaning. Safe: the model stops. -/
  | noRunningCommand
  /-- Raised by the step when `busy` is 1 and `step` is not an index of the running command's action
  list: rule R28 says no index is skipped and none past the end is reached. Safe: the model stops. -/
  | stepOutsideActionList
  deriving DecidableEq, Repr

/-- Why the machine gives no meaning. -/
inductive Refusal where
  /-- An instruction without a meaning in this model, by its mnemonic. Raised by an arm of exec that
  has no meaning; there is none. Safe. -/
  | notModelled (mnemonic : String)
  /-- The configuration is ill-formed: "the model refuses an ill-formed configuration (it gives it no
  meaning)" (rule R8, U19). Raised by every meaning and by the step. Safe. -/
  | illFormedConfig
  deriving DecidableEq, Repr

/-- What a step answers. -/
abbrev Result := Host.Outcome State Fault Refusal

/-- The device before anything was written to it (rules R41, R81). -/
def Device.initial : Device where
  claimed := false
  reg := []
  violated := false

/-- The machine right after reset (rule R40). `oldmode` and `presc` are "unspecified" there and 0x00
here (DESIGN CHOICE, log entry 3). The configuration is the default record of rule R7 (log entry
2). The host offers nothing, and the environment answers freely (rule R80; log
entries 5 and 6). -/
def State.reset : State where
  cfg := {}
  fsm := .closed
  devaddr := 0x00
  cmd := 0
  busy := false
  step := 0
  oldmode := 0x00
  presc := 0x00
  respValid := false
  respStatus := .ok
  respData := 0x00
  fatalCode := .ok
  host := []
  env := { device := Device.initial, turns := [], answering := .unconstrained, drawn := 0 }
  trace := []
  responses := []

end Sys2Proof.Machine
end

