-- ==== Sys2Proof/Machine/Memory.lean ====
section
/-! DEFINITION. Reading and changing one register of the device's memory (rules R60, R64, R65, R81). -/

namespace Sys2Proof.Machine

/-- The byte at an address, or `none` for a register without a value (rule R81). -/
def memGet : Memory → Nat → Option Byte
  | [], _ => none
  | (b, v) :: m, a => if b = a then some v else memGet m a

/-- Store a byte at an address, keeping the addresses rising. -/
def memSet : Memory → Nat → Byte → Memory
  | [], a, v => [(a, v)]
  | (b, w) :: m, a, v =>
    if a < b then (a, v) :: (b, w) :: m
    else if a = b then (a, v) :: m
    else (b, w) :: memSet m a v

/-- Leave a register without a value. -/
def memErase : Memory → Nat → Memory
  | [], _ => []
  | (b, w) :: m, a => if a = b then m else (b, w) :: memErase m a

/-- One change made by the environment. -/
def memChange (m : Memory) (c : CellChange) : Memory :=
  match c.value with
  | some v => memSet m c.reg.toNat v
  | none => memErase m c.reg.toNat

/-- Several changes, in order. -/
def memChanges (m : Memory) (cs : List CellChange) : Memory :=
  cs.foldl memChange m

end Sys2Proof.Machine
end

