-- ==== Sys2Proof/Machine/Environment.lean ====
section
/-! DEFINITION. The bus side: the block's requests (rules R11, R12, R77), the reference device
(rules R81 to R83), the second master (rule R84), and how the environment answers a request
(rules R80, R85). -/

namespace Sys2Proof.Machine

/-- What an action asks for (rules R11, R12). `BusRelease` is not here: it cannot fail, waits for no
answer, and is no action of any list (rules R11, R156). -/
inductive Request where
  | claim (a : BusAddr)
  | write (a : BusAddr) (r : RegAddr) (v : Byte)
  | read (a : BusAddr) (r : RegAddr)
  | delay (t : Nat)
  deriving DecidableEq, Repr

/-- The answer to a request. `pending` is the absence of an answer (rule R85). -/
inductive Answer where
  | ok (data : Byte)
  | fail
  | pending
  deriving DecidableEq, Repr

/-- The event a request leaves in the trace; an unanswered request leaves none (rule R13). -/
def Request.event : Request → Answer → List Event
  | _, .pending => []
  | .claim a, .ok _ => [.claim a true]
  | .claim a, .fail => [.claim a false]
  | .write a r v, .ok _ => [.write a r v true]
  | .write a r v, .fail => [.write a r v false]
  | .read a r, .ok d => [.read a r (some d)]
  | .read a r, .fail => [.read a r none]
  | .delay t, .ok _ => [.delay t]
  | .delay t, .fail => [.delay t]

/-- `asleep()` of rule R81: MODE1 has a value and its sleep bit is set. -/
def Device.asleep (cfg : Config) (d : Device) : Bool :=
  match memGet d.reg cfg.mode1Addr.toNat with
  | some m => m &&& cfg.sleepMask != 0
  | none => false

/-- A register write that reaches the device (rules R81, R82). -/
def Device.store (cfg : Config) (r : RegAddr) (v : Byte) (d : Device) : Device :=
  if r = cfg.prescaleAddr ∧ d.asleep cfg = false then { d with violated := true }
  else { d with reg := memSet d.reg r.toNat v }

/-- A transaction of the second master with the reference device: `reg` and `violated` change by the
rules of the block's writes, and a read changes nothing (rules R81, R84). -/
def Device.foreignOne (cfg : Config) (d : Device) : ForeignTxn → Device
  | .write r v => d.store cfg r v
  | .read _ => d

/-- A transaction of the second master, with the reference device or with any other (rules R36, R67,
R84, U2, U6; log entry 9). -/
def Device.foreignAct (cfg : Config) (d : Device) : ForeignAct → Device
  | .device t => d.foreignOne cfg t
  | .free changes => { d with reg := memChanges d.reg changes }

/-- The second master's transactions before an event of the block; there are none unless
EXTERNAL_MASTER is true (rule R84). -/
def Device.foreign (cfg : Config) (ts : List ForeignAct) (d : Device) : Device :=
  if cfg.externalMaster then ts.foldl (Device.foreignAct cfg) d else d

/-- The reference device's answer to a request; `draw` is the byte it draws for a register without a
value (rule R81). -/
def Device.answer (cfg : Config) (draw : Byte) (q : Request) (d : Device) : Answer × Device :=
  match q with
  | .claim _ => if d.claimed then (.fail, d) else (.ok 0, { d with claimed := true })
  | .write a r v => if a ≠ cfg.deviceAddr then (.fail, d) else (.ok 0, d.store cfg r v)
  | .read a r =>
    if a ≠ cfg.deviceAddr then (.fail, d)
    else (.ok ((memGet d.reg r.toNat).getD draw), d)
  | .delay _ => (.ok 0, d)

/-- `BusRelease(a)` (rules R11, R81). -/
def Device.release (d : Device) : Device := { d with claimed := false }

/-- A register of which the spec says that it holds the byte written to it: MODE1, PRESCALE and the
channel registers (rules R34, R36, R37). Of MODE2's fields and of every other address it says nothing
(rules R35, R38, U9). -/
def describedReg (cfg : Config) (r : RegAddr) : Bool :=
  r == cfg.mode1Addr || r == cfg.prescaleAddr || cfg.inChannelBlock r

/-- Those of the environment's changes that concern one register. -/
def changesOf (r : RegAddr) (changes : List CellChange) : List CellChange :=
  changes.filter (fun c => c.reg == r)

/-- A free `ok` to a write (log entry 17): a described register holds the new byte and the others are as
before (rules R176, R182), but PRESCALE outside sleep mode may hold anything (U2), and a register the
spec does not describe may have any effect (U9). -/
def Device.freeStore (cfg : Config) (r : RegAddr) (v : Byte) (changes : List CellChange)
    (d : Device) : Device :=
  if describedReg cfg r = false then { d with reg := memChanges d.reg changes }
  else if r = cfg.prescaleAddr ∧ d.asleep cfg = false then
    { d with reg := memChanges d.reg (changesOf r changes) }
  else { d with reg := memSet d.reg r.toNat v }

/-- A free `ok` (rule R80): a claim is then held (rule R39 a); a write stores; a read may have side
effects, as rule R67 does not let a model assume otherwise. A transaction at another bus address does
not reach the device's registers (rule R60). -/
def Device.freeOk (cfg : Config) (q : Request) (changes : List CellChange) (d : Device) : Device :=
  match q with
  | .claim _ => { d with claimed := true }
  | .write a r v => if a = cfg.deviceAddr then d.freeStore cfg r v changes else d
  | .read a _ => if a = cfg.deviceAddr then { d with reg := memChanges d.reg changes } else d
  | .delay _ => d

/-- A free `fail` (rule R80; log entry 17). A failed claim holds nothing and reaches no register
(rule R11). A failed read of MODE1 leaves the device untouched (rule R176, SETFREQ action 0; DEDUCED for
RDREG, which makes the same transaction); any other failed read may have side effects (rule R67). A failed
write to a described register leaves open what that one holds, and no other (rules R176, R182, U5); one to
any other register may have had any effect (U9). -/
def Device.freeFail (cfg : Config) (q : Request) (changes : List CellChange) (d : Device) :
    Device :=
  match q with
  | .write a r _ =>
    if a ≠ cfg.deviceAddr then d
    else if describedReg cfg r then { d with reg := memChanges d.reg (changesOf r changes) }
    else { d with reg := memChanges d.reg changes }
  | .read a r =>
    if a = cfg.deviceAddr ∧ r ≠ cfg.mode1Addr then { d with reg := memChanges d.reg changes } else d
  | .claim _ | .delay _ => d

/-- What the second master does on its own before the reference device's coming answer: any transactions
with that device (rule R84). -/
def Env.freeForeign (e : Env) : List ForeignAct :=
  (Config.freeForeign e.drawn).map .device

/-- The environment's turn at the coming bus request: the scripted one, else what the answering party
does on its own (rules R80, R81, R84). -/
def Env.nextTurn (e : Env) : EnvTurn :=
  match e.turns with
  | t :: _ => t
  | [] =>
    match e.answering with
    | .unconstrained => Config.freeTurn e.drawn
    | .referenceDevice => { foreign := e.freeForeign, reply := some .device }

/-- The environment when its turn is taken: a scripted turn is used up, and the next free values are
fresh ones unless that turn was only a wait. -/
def Env.turnTaken (e : Env) : Env :=
  match e.turns with
  | ⟨_, none⟩ :: rest => { e with turns := rest }
  | ⟨_, some _⟩ :: rest => { e with turns := rest, drawn := e.drawn + 1 }
  | [] => { e with drawn := e.drawn + 1 }

/-- What a turn makes of a bus request and of the device; `draw` is the byte the reference device draws
(rules R80, R81, R84, R85). -/
def Device.takeTurn (cfg : Config) (draw : Byte) (q : Request) (t : EnvTurn) (d : Device) :
    Answer × Device :=
  let d' := d.foreign cfg t.foreign
  match t.reply with
  | none => (.pending, d')
  | some .device => d'.answer cfg draw q
  | some (.ok v changes) => (.ok v, d'.freeOk cfg q changes)
  | some (.fail changes) => (.fail, d'.freeFail cfg q changes)

/-- The environment answers a bus request (rules R80, R81, R84, R85). -/
def Env.respondBus (cfg : Config) (q : Request) (e : Env) : Answer × Env :=
  let r := e.device.takeTurn cfg (Config.freeByte e.drawn) q e.nextTurn
  (r.1, { e.turnTaken with device := r.2 })

/-- The turn that says what became of a bus request `rst` left outstanding (rule R242, U15): the coming
one, but the reference device alone either took the request or never did. -/
def Env.abandonTurn (e : Env) : EnvTurn :=
  match e.turns, e.answering with
  | [], .referenceDevice =>
    { foreign := e.freeForeign
      reply := if Config.freeTaken e.drawn then some .device else none }
  | _, _ => e.nextTurn

/-- The environment after `rst` cut a bus request short: nobody hears the answer (rule R242). -/
def Env.abandonBus (cfg : Config) (q : Request) (e : Env) : Env :=
  { e.turnTaken with
    device := (e.device.takeTurn cfg (Config.freeByte e.drawn) q e.abandonTurn).2 }

/-- Time passes without a bus request: a scripted turn without a reply is used up, and the second
master's transactions in it happen (rules R84, R85). `none` where no such turn comes next. -/
def Env.passTime (cfg : Config) (e : Env) : Option Env :=
  match e.turns with
  | ⟨foreign, none⟩ :: rest =>
    some { e with device := e.device.foreign cfg foreign, turns := rest }
  | _ => none

/-- A delay ends, unless the environment lets time pass instead (rules R28, R222, R242). -/
def Env.respondDelay (cfg : Config) (e : Env) : Answer × Env :=
  match e.passTime cfg with
  | some e' => (.pending, e')
  | none => (.ok 0, e)

/-- The environment answers a request (rules R80, R222). -/
def Env.respond (cfg : Config) (q : Request) (e : Env) : Answer × Env :=
  match q with
  | .delay _ => e.respondDelay cfg
  | .claim _ | .write .. | .read .. => e.respondBus cfg q

/-- The block's side of the bus port (rule R77). -/
structure BusOutputs where
  reqValid : Bool
  /-- 0 = claim, 1 = write, 2 = read, 3 = release. -/
  reqKind : BitVec 2
  reqAddr : BusAddr
  reqReg : RegAddr
  reqWdata : Byte
  deriving DecidableEq, Repr

/-- No request is offered. -/
def BusOutputs.idle : BusOutputs := ⟨false, 0, 0, 0, 0⟩

/-- The signals that offer a request; a delay offers none (rules R39 c, R77). -/
def Request.signals : Request → BusOutputs
  | .claim a => ⟨true, 0, a, 0, 0⟩
  | .write a r v => ⟨true, 1, a, r, v⟩
  | .read a r => ⟨true, 2, a, r, 0⟩
  | .delay _ => BusOutputs.idle

/-- The signals of `BusRelease(a)` (rules R11, R77). -/
def releaseSignals (a : BusAddr) : BusOutputs := ⟨true, 3, a, 0, 0⟩

end Sys2Proof.Machine
end

