-- ==== Sys2Proof/Machine/Operands.lean ====
section
/-! DEFINITION. Every value a command computes from its operands: the bytes of a tick (rule R62), the
address of a channel register (rule R69), the prescale byte (rule R172), and the bytes SETFREQ writes to
MODE1 (rule R175). -/

namespace Sys2Proof.Machine

/-- `t[7:0]`, the byte at the lower address (rule R62). -/
def tickLow (t : Tick) : Byte := t.extractLsb' 0 8

/-- `zext_8(t[11:8])`, the byte at the next address (rules R62, R110). -/
def tickHigh (t : Tick) : Byte := (t.extractLsb' 8 4).setWidth 8

/-- `chaddr(c, k) = CH_BASE_ADDR + 4*c + k`, computed as a natural number (rule R69). -/
def channelAddrNat (cfg : Config) (ch k : Nat) : Nat :=
  cfg.chBaseAddr.toNat + channelStride * ch + k

/-- The 8-bit address of byte `k` of channel `ch` (rule R69). -/
def channelAddr (cfg : Config) (ch : Byte) (k : Nat) : RegAddr :=
  BitVec.ofNat 8 (channelAddrNat cfg ch.toNat k)

/-- `q` of rule R172: `OSC_CLOCK_HZ / (4096 * F/16)` rounded to the nearest integer, ties upward. -/
def prescaleQuotient (oscClockHz f : Nat) : Nat :=
  (oscClockHz + 128 * f) / (256 * f)

/-- `p` of rule R172, a mathematical integer that is -1 when `q` is 0. -/
def prescaleUnclamped (oscClockHz f : Nat) : Int :=
  (prescaleQuotient oscClockHz f : Int) - 1

/-- `presc(F)`, the clamped prescale byte (rule R172). -/
def prescaleByte (cfg : Config) (f : BitVec 32) : Byte :=
  let p := prescaleUnclamped cfg.oscClockHz f.toNat
  if p < (cfg.prescaleMin.toNat : Int) then cfg.prescaleMin
  else if p > (cfg.prescaleMax.toNat : Int) then cfg.prescaleMax
  else BitVec.ofNat 8 p.toNat

/-- The byte of SETFREQ action 1: as read, with the sleep bit set (rule R175). -/
def mode1Asleep (cfg : Config) (oldmode : Byte) : Byte := oldmode ||| cfg.sleepMask

/-- The byte of SETFREQ action 4: as read, with the sleep bit clear (rule R175). -/
def mode1Awake (cfg : Config) (oldmode : Byte) : Byte := oldmode &&& ~~~cfg.sleepMask

/-- The byte of SETFREQ action 6: that of action 4 with the restart bit set (rule R175). -/
def mode1Restarted (cfg : Config) (oldmode : Byte) : Byte :=
  mode1Awake cfg oldmode ||| cfg.restartMask

/-- The byte every initialization writes to MODE1 (rule R150). -/
def resetByte : Byte := 0x00

end Sys2Proof.Machine
end

