-- ==== Sys2Proof/Machine/Actions.lean ====
section
/-! DEFINITION. The action lists of rule R27: what each action of each command asks of the bus or of
the timer, and how many actions a command has. The command families perform these requests; the bus
port (rule R77) and a reset that cuts a command short (rule R242) read the same table. -/

namespace Sys2Proof.Machine

/-- The reset write of RESET action 0 and SETUP action 1 (rules R150, R151, R155). -/
def resetWrite (s : State) : Request := .write s.devaddr s.cfg.mode1Addr resetByte

/-- WRREG action 0 (rule R135). -/
def registerWrite (r : RegAddr) (v : Byte) (s : State) : Request := .write s.devaddr r v

/-- RDREG action 0 (rule R139). -/
def registerRead (r : RegAddr) (s : State) : Request := .read s.devaddr r

/-- SETFREQ action 0, source step (1) (rule R174). -/
def modeRead (s : State) : Request := .read s.devaddr s.cfg.mode1Addr

/-- SETFREQ action 1, source step (2), the write (rules R174, R175). -/
def sleepWrite (s : State) : Request :=
  .write s.devaddr s.cfg.mode1Addr (mode1Asleep s.cfg s.oldmode)

/-- SETFREQ actions 2 and 5 (rules R174, R222). -/
def settleDelay (s : State) : Request := .delay s.cfg.tSettleUs

/-- SETFREQ action 3, source step (3) (rule R174). -/
def prescaleWrite (s : State) : Request := .write s.devaddr s.cfg.prescaleAddr s.presc

/-- SETFREQ action 4, source step (4) (rules R174, R175). -/
def wakeWrite (s : State) : Request :=
  .write s.devaddr s.cfg.mode1Addr (mode1Awake s.cfg s.oldmode)

/-- SETFREQ action 6, source step (6) (rules R174, R175). -/
def restartWrite (s : State) : Request :=
  .write s.devaddr s.cfg.mode1Addr (mode1Restarted s.cfg s.oldmode)

/-- The byte of SETCH action `k`: on-low, on-high, off-low, off-high (rules R62, R181). -/
def channelByte (on off : Tick) : Nat → Byte
  | 0 => tickLow on
  | 1 => tickHigh on
  | 2 => tickLow off
  | _ => tickHigh off

/-- SETCH action `k` (rule R181). -/
def channelWrite (ch : Byte) (on off : Tick) (k : Nat) (s : State) : Request :=
  .write s.devaddr (channelAddr s.cfg ch k) (channelByte on off k)

/-- How many actions the list of a command has (rule R27). -/
def actionCount : Instr → Nat
  | .openBus _ | .wrreg _ _ | .rdreg _ | .reset => 1
  | .setup _ => 2
  | .setfreq rs _ => if rs then 7 else 6
  | .setch _ _ _ => 4

/-- The actions of SETUP (rules R27, R155). -/
def setupRequest (a : BusAddr) (k : Nat) (s : State) : Option Request :=
  match k with
  | 0 => some (.claim a)
  | 1 => some (resetWrite s)
  | _ => none

/-- The actions of SETFREQ (rules R27, R174). -/
def setfreqRequest (rs : Bool) (k : Nat) (s : State) : Option Request :=
  match k with
  | 0 => some (modeRead s)
  | 1 => some (sleepWrite s)
  | 2 => some (settleDelay s)
  | 3 => some (prescaleWrite s)
  | 4 => some (wakeWrite s)
  | 5 => some (settleDelay s)
  | 6 => if rs then some (restartWrite s) else none
  | _ => none

/-- The action of a command at an index (rule R27); `none` past the end of its list. -/
def actionRequest (i : Instr) (k : Nat) (s : State) : Option Request :=
  match i with
  | .openBus a => if k = 0 then some (.claim a) else none
  | .wrreg r v => if k = 0 then some (registerWrite r v s) else none
  | .rdreg r => if k = 0 then some (registerRead r s) else none
  | .reset => if k = 0 then some (resetWrite s) else none
  | .setup a => setupRequest a k s
  | .setfreq rs _ => setfreqRequest rs k s
  | .setch ch on off => if k < 4 then some (channelWrite ch on off k s) else none

/-- What the running command is waiting for: the action at `step` while `busy` is 1 (rules R27,
R39 b, R71). -/
def State.outstanding (s : State) : Option Request :=
  if s.busy then
    match decode s.cmd with
    | some i => actionRequest i s.step.toNat s
    | none => none
  else none

/-- The block's outputs on the bus port (rule R77). -/
def State.busOutputs (s : State) : BusOutputs :=
  match s.outstanding with
  | some q => q.signals
  | none => BusOutputs.idle

end Sys2Proof.Machine
end

