-- ==== Sys2Proof/Machine/Flags.lean ====
section
/-! DEFINITION. The level outputs computed from the state (rule R23), the numeric codes of the FSM
states and the statuses (rules R21, R201), and the block's host port (rules R101, R117). The block has
no condition codes (rule R23). -/

namespace Sys2Proof.Machine

/-- The 2-bit code of an FSM state (rule R21). -/
def Fsm.code : Fsm → BitVec 2
  | .closed => 0b00
  | .opened => 0b01
  | .ready  => 0b10
  | .fatal  => 0b11

/-- The 4-bit code of a status (rule R201). -/
def Status.code : Status → BitVec 4
  | .ok                       => 0x0
  | .busOpenFailed            => 0x1
  | .busWriteFailed           => 0x2
  | .busReadFailed            => 0x3
  | .resetFailed              => 0x4
  | .invalidFrequency         => 0x5
  | .invalidChannel           => 0x6
  | .channelSourceUnavailable => 0x7
  | .illegalCommand           => 0x8
  | .noHandle                 => 0x9
  | .notReady                 => 0xA
  | .fatal                    => 0xB

/-- `open = (fsm == OPENED || fsm == READY)`: a handle exists (rules R14, R23). -/
def State.isOpen (s : State) : Bool := s.fsm == .opened || s.fsm == .ready

/-- `ready = (fsm == READY)` (rule R23). -/
def State.isReady (s : State) : Bool := s.fsm == .ready

/-- `fatal = (fsm == FATAL)` (rule R23). -/
def State.isFatal (s : State) : Bool := s.fsm == .fatal

/-- `cmd_ready = ~busy` (rules R23, R101). -/
def State.cmdReady (s : State) : Bool := !s.busy

/-- The outputs the host sees (rules R101, R117). -/
structure HostOutputs where
  cmdReady : Bool
  respValid : Bool
  respStatus : BitVec 4
  respData : Byte
  isOpen : Bool
  isReady : Bool
  isFatal : Bool
  fatalCode : BitVec 4
  deriving DecidableEq, Repr

/-- The host port as a function of the state (rules R20, R101, R117). -/
def State.hostOutputs (s : State) : HostOutputs where
  cmdReady := s.cmdReady
  respValid := s.respValid
  respStatus := s.respStatus.code
  respData := s.respData
  isOpen := s.isOpen
  isReady := s.isReady
  isFatal := s.isFatal
  fatalCode := s.fatalCode.code

end Sys2Proof.Machine
end

