-- ==== Sys2Proof/Machine/Ops.lean ====
section
/-! DEFINITION. The operations every command is written with: accepting, refusing, starting, advancing,
completing and aborting (rules R12, R27 to R32, R101, R213), the bus primitives (rules R11, R13), the
entry to FATAL (rule R216) and the only way out of it, hardware reset (rules R217, R240 to R243). -/

namespace Sys2Proof.Machine

/-- End the running command with a response (rule R12): `resp_status`, `resp_data` and `resp_valid` are
written together, and the sequencer returns to rest. -/
def State.respond (s : State) (status : Status) (data : Byte) : State :=
  { s with
    respStatus := status
    respData := data
    respValid := true
    busy := false
    step := 0
    responses := s.responses ++ [⟨status, data⟩] }

/-- `raise <Status>`, with data 0x00 (rules R12, R29, R32). Control goes nowhere. -/
def State.raise (s : State) (status : Status) : State := s.respond status 0x00

/-- `complete(data)` (rules R12, R30). -/
def State.complete (s : State) (data : Byte) : State := s.respond .ok data

/-- `busy <- 1`, `step <- 0`: the action list starts (rule R27). -/
def State.begin (s : State) : State := { s with busy := true, step := 0 }

/-- `step <- step + 1` (rule R28). -/
def State.advance (s : State) : State := { s with step := s.step + 1 }

/-- A successful claim: `devaddr <- a`, `fsm <- OPENED` (rules R25, R131, R155). -/
def State.takeHandle (s : State) (a : BusAddr) : State := { s with devaddr := a, fsm := .opened }

/-- `BusRelease(devaddr)`: an event of the trace that cannot fail (rules R11, R156). -/
def State.releaseHandle (s : State) : State :=
  { s with
    env := { s.env with device := s.env.device.release }
    trace := s.trace ++ [.release s.devaddr] }

/-- FATAL entry, the block's form of taking an exception (rule R216): the cause is saved in
`fatal_code`, `fsm` becomes FATAL, and the response carries the same status. -/
def State.enterFatal (s : State) (status : Status) : State :=
  { s with fsm := .fatal, fatalCode := status }.raise status

/-- One action: the request goes to the environment, its answer is one event of the trace, and the
command goes on as its rule says; without an answer the command stays where it is (rules R13, R28,
R29, R71, R85). -/
def State.perform (s : State) (q : Request) (onOk : Byte → State → State)
    (onFail : State → State) : State :=
  let r := s.env.respond s.cfg q
  let s' := { s with env := r.2, trace := s.trace ++ q.event r.1 }
  match r.1 with
  | .ok d => onOk d s'
  | .fail => onFail s'
  | .pending => s'

/-- Steps 1 and 3 of rule R213 for OPEN and SETUP: they need state CLOSED. -/
def State.gateClosed (s : State) : Option Status :=
  match s.fsm with
  | .fatal => some .fatal
  | .closed => none
  | .opened | .ready => some .busOpenFailed

/-- Steps 1 and 3 of rule R213 for RESET: it needs a handle. -/
def State.gateHandle (s : State) : Option Status :=
  match s.fsm with
  | .fatal => some .fatal
  | .closed => some .noHandle
  | .opened | .ready => none

/-- Steps 1 and 3 of rule R213 for WRREG, RDREG, SETFREQ and SETCH: they need state READY. -/
def State.gateReady (s : State) : Option Status :=
  match s.fsm with
  | .fatal => some .fatal
  | .closed => some .noHandle
  | .opened => some .notReady
  | .ready => none

/-- Step 4 of rule R213 for SETFREQ (rules R107, R207). -/
def frequencyCheck (f : BitVec 32) : Option Status :=
  if f = 0 then some .invalidFrequency else none

/-- Step 4 of rule R213 for SETCH (rules R108, R208). -/
def channelCheck (ch : Byte) : Option Status :=
  if 15 < ch.toNat then some .invalidChannel else none

/-- A command under an ill-formed configuration has no meaning (rule R8); else the first check that
fails is the response, without any bus event, and a command that passes runs its actions (rule R213). -/
def State.command (s : State) (refusal : Option Status) (run : State → State) : Result :=
  if s.cfg.wf then
    .next (match refusal with
      | some status => s.raise status
      | none => run s)
  else .refused .illFormedConfig

/-- Acceptance of the word on offer (rules R26, R32, R101): it is latched in `cmd`, and the response
of the command before it is withdrawn. -/
def State.accept (s : State) (w : Word) (rest : List HostInput) : State :=
  { s with cmd := w, respValid := false, host := rest }

/-- Steps 1 and 2 of rule R213 for a word that does not decode: `Fatal` in state FATAL, else
`IllegalCommand` (rules R209, R212). -/
def State.refuseIllegal (s : State) : State :=
  if s.fsm = .fatal then s.raise .fatal else s.raise .illegalCommand

/-- What becomes of an outstanding bus request when `rst` cuts its command short: it "may or may not
have taken effect" (rule R242, U15). Where none is outstanding the device keeps every register (rule
R243); a delay just ends. -/
def State.abandonRequest (s : State) : Env :=
  match s.outstanding with
  | none | some (.delay _) => s.env
  | some q => s.env.abandonBus s.cfg q

/-- Hardware reset (rules R40, R240 to R243): every register of the block takes its reset value,
`oldmode` and `presc` a free one, the claim ends without an event, and the device's registers stay. -/
def State.hardwareReset (s : State) : State :=
  let e := s.abandonRequest
  { s with
    fsm := .closed
    devaddr := 0x00
    cmd := 0
    busy := false
    step := 0
    oldmode := Config.freeOldmode e.drawn
    presc := Config.freePresc e.drawn
    respValid := false
    respStatus := .ok
    respData := 0x00
    fatalCode := .ok
    env := { e with
      device := e.device.release
      drawn := e.drawn + 1 } }

/-- Nothing is offered and nothing runs: the block waits (rule R240), and only the environment may
move (rule R84). -/
def State.idle (s : State) : State :=
  match s.env.passTime s.cfg with
  | some e => { s with env := e }
  | none => s

end Sys2Proof.Machine
end

