-- ==== Sys2Proof/Machine/Init.lean ====
section
/-! DEFINITION. The initialization commands RESET and SETUP (41_init.md). -/

namespace Sys2Proof.Machine

/-- RESET action 0 (rules R151, R152). -/
def resetAction0 (s : State) : State :=
  s.perform (resetWrite s)
    (fun _ s => { s with fsm := .ready }.complete 0x00)
    (fun s => { s with fsm := .opened }.raise .resetFailed)

/-- RESET (rules R151, R152). -/
def execReset (s : State) : Result :=
  s.command s.gateHandle (fun s => resetAction0 s.begin)

/-- SETUP action 1 (rules R155, R156). -/
def setupAction1 (s : State) : State :=
  s.perform (resetWrite s)
    (fun _ s => { s with fsm := .ready }.complete 0x00)
    (fun s => s.releaseHandle.enterFatal .resetFailed)

/-- SETUP action 0 (rule R155). -/
def setupAction0 (a : BusAddr) (s : State) : State :=
  s.perform (.claim a)
    (fun _ s => setupAction1 (s.takeHandle a).advance)
    (fun s => s.enterFatal .busOpenFailed)

/-- SETUP (rules R155 to R157). -/
def execSetup (a : BusAddr) (s : State) : Result :=
  s.command s.gateClosed (fun s => setupAction0 a s.begin)

end Sys2Proof.Machine
end

