-- ==== Sys2Proof/Machine/PwmProgram.lean ====
section
/-! DEFINITION. The programming commands SETFREQ and SETCH (42_pwm_program.md). -/

namespace Sys2Proof.Machine

/-- SETFREQ action 6, the restart write; only with `RS` = 1 (rules R174, R175). -/
def setfreqAction6 (s : State) : State :=
  s.perform (restartWrite s) (fun _ s => s.complete 0x00) (fun s => s.raise .busWriteFailed)

/-- SETFREQ action 5, the second wait; the last action when `RS` = 0 (rule R174). -/
def setfreqAction5 (rs : Bool) (s : State) : State :=
  s.perform (settleDelay s)
    (fun _ s => if rs then setfreqAction6 s.advance else s.complete 0x00)
    (fun s => s)

/-- SETFREQ action 4, MODE1 with the sleep bit clear (rules R174, R175). -/
def setfreqAction4 (rs : Bool) (s : State) : State :=
  s.perform (wakeWrite s)
    (fun _ s => setfreqAction5 rs s.advance) (fun s => s.raise .busWriteFailed)

/-- SETFREQ action 3, the prescale (rule R174). -/
def setfreqAction3 (rs : Bool) (s : State) : State :=
  s.perform (prescaleWrite s)
    (fun _ s => setfreqAction4 rs s.advance) (fun s => s.raise .busWriteFailed)

/-- SETFREQ action 2, the first wait (rule R174). -/
def setfreqAction2 (rs : Bool) (s : State) : State :=
  s.perform (settleDelay s) (fun _ s => setfreqAction3 rs s.advance) (fun s => s)

/-- SETFREQ action 1, MODE1 with the sleep bit set (rules R174, R175). -/
def setfreqAction1 (rs : Bool) (s : State) : State :=
  s.perform (sleepWrite s)
    (fun _ s => setfreqAction2 rs s.advance) (fun s => s.raise .busWriteFailed)

/-- SETFREQ action 0, the read of MODE1 into `oldmode` (rules R31, R174). -/
def setfreqAction0 (rs : Bool) (s : State) : State :=
  s.perform (modeRead s)
    (fun m s => setfreqAction1 rs { s with oldmode := m }.advance)
    (fun s => s.raise .busReadFailed)

/-- SETFREQ (rules R170, R174 to R177): `presc` is written when the checks have passed (rule R31). -/
def execSetfreq (rs : Bool) (f : BitVec 32) (s : State) : Result :=
  s.command (s.gateReady.or (frequencyCheck f))
    (fun s => setfreqAction0 rs { s with presc := prescaleByte s.cfg f }.begin)

/-- SETCH action 3, off-tick high (rule R181). -/
def setchAction3 (ch : Byte) (on off : Tick) (s : State) : State :=
  s.perform (channelWrite ch on off 3 s)
    (fun _ s => s.complete 0x00) (fun s => s.raise .busWriteFailed)

/-- SETCH action 2, off-tick low (rule R181). -/
def setchAction2 (ch : Byte) (on off : Tick) (s : State) : State :=
  s.perform (channelWrite ch on off 2 s)
    (fun _ s => setchAction3 ch on off s.advance) (fun s => s.raise .busWriteFailed)

/-- SETCH action 1, on-tick high (rule R181). -/
def setchAction1 (ch : Byte) (on off : Tick) (s : State) : State :=
  s.perform (channelWrite ch on off 1 s)
    (fun _ s => setchAction2 ch on off s.advance) (fun s => s.raise .busWriteFailed)

/-- SETCH action 0, on-tick low (rule R181). -/
def setchAction0 (ch : Byte) (on off : Tick) (s : State) : State :=
  s.perform (channelWrite ch on off 0 s)
    (fun _ s => setchAction1 ch on off s.advance) (fun s => s.raise .busWriteFailed)

/-- SETCH (rules R170, R180 to R183). -/
def execSetch (ch : Byte) (on off : Tick) (s : State) : Result :=
  s.command (s.gateReady.or (channelCheck ch)) (fun s => setchAction0 ch on off s.begin)

end Sys2Proof.Machine
end

