-- ==== Sys2Proof/Machine/Transport.lean ====
section
/-! DEFINITION. The transport commands OPEN, WRREG and RDREG (40_transport.md). -/

namespace Sys2Proof.Machine

/-- OPEN action 0 (rule R131). -/
def openAction0 (a : BusAddr) (s : State) : State :=
  s.perform (.claim a) (fun _ s => (s.takeHandle a).complete 0x00) (fun s => s.raise .busOpenFailed)

/-- OPEN (rules R131, R132). -/
def execOpen (a : BusAddr) (s : State) : Result :=
  s.command s.gateClosed (fun s => openAction0 a s.begin)

/-- WRREG action 0 (rule R135). -/
def wrregAction0 (r : RegAddr) (v : Byte) (s : State) : State :=
  s.perform (registerWrite r v s) (fun _ s => s.complete 0x00) (fun s => s.raise .busWriteFailed)

/-- WRREG (rules R135, R136). -/
def execWrreg (r : RegAddr) (v : Byte) (s : State) : Result :=
  s.command s.gateReady (fun s => wrregAction0 r v s.begin)

/-- RDREG action 0 (rule R139). -/
def rdregAction0 (r : RegAddr) (s : State) : State :=
  s.perform (registerRead r s) (fun d s => s.complete d) (fun s => s.raise .busReadFailed)

/-- RDREG (rules R139, R140). -/
def execRdreg (r : RegAddr) (s : State) : Result :=
  s.command s.gateReady (fun s => rdregAction0 r s.begin)

end Sys2Proof.Machine
end

