-- ==== Sys2Proof/Machine/Dispatch.lean ====
section
/-! DEFINITION. One arm per command of the opcode map (rule R109). -/

namespace Sys2Proof.Machine

def exec (i : Instr) (s : State) : Host.Outcome State Fault Refusal :=
  match i with
  -- 40_transport.md
  | .openBus a => Sys2Proof.Machine.execOpen a s
  | .wrreg r v => Sys2Proof.Machine.execWrreg r v s
  | .rdreg r => Sys2Proof.Machine.execRdreg r s
  -- 41_init.md
  | .reset => Sys2Proof.Machine.execReset s
  | .setup a => Sys2Proof.Machine.execSetup a s
  -- 42_pwm_program.md
  | .setfreq rs f => Sys2Proof.Machine.execSetfreq rs f s
  | .setch ch on off => Sys2Proof.Machine.execSetch ch on off s

end Sys2Proof.Machine
end

