-- ==== Sys2Proof/Machine/Resume.lean ====
section
/-! DEFINITION. Going on with a command whose request was not answered yet: the block performs the
action whose index is `step` (rules R27, R85). -/

namespace Sys2Proof.Machine

/-- The rest of SETUP's action list from an index on (rules R27, R155). -/
def resumeSetup (a : BusAddr) (k : Nat) (s : State) : Option State :=
  match k with
  | 0 => some (setupAction0 a s)
  | 1 => some (setupAction1 s)
  | _ => none

/-- The rest of SETFREQ's action list from an index on (rules R27, R174). -/
def resumeSetfreq (rs : Bool) (k : Nat) (s : State) : Option State :=
  match k with
  | 0 => some (setfreqAction0 rs s)
  | 1 => some (setfreqAction1 rs s)
  | 2 => some (setfreqAction2 rs s)
  | 3 => some (setfreqAction3 rs s)
  | 4 => some (setfreqAction4 rs s)
  | 5 => some (setfreqAction5 rs s)
  | 6 => if rs then some (setfreqAction6 s) else none
  | _ => none

/-- The rest of SETCH's action list from an index on (rules R27, R181). -/
def resumeSetch (ch : Byte) (on off : Tick) (k : Nat) (s : State) : Option State :=
  match k with
  | 0 => some (setchAction0 ch on off s)
  | 1 => some (setchAction1 ch on off s)
  | 2 => some (setchAction2 ch on off s)
  | 3 => some (setchAction3 ch on off s)
  | _ => none

/-- The rest of a command's action list from an index on (rule R27); `none` past its end. -/
def resumeAt (i : Instr) (k : Nat) (s : State) : Option State :=
  match i with
  | .openBus a => if k = 0 then some (openAction0 a s) else none
  | .wrreg r v => if k = 0 then some (wrregAction0 r v s) else none
  | .rdreg r => if k = 0 then some (rdregAction0 r s) else none
  | .reset => if k = 0 then some (resetAction0 s) else none
  | .setup a => resumeSetup a k s
  | .setfreq rs _ => resumeSetfreq rs k s
  | .setch ch on off => resumeSetch ch on off k s

/-- The running command goes on (rules R27, R85). The two faults are states rule R28 excludes. -/
def resume (s : State) : Result :=
  match decode s.cmd with
  | none => .fault .noRunningCommand
  | some i =>
    match resumeAt i s.step.toNat s with
    | some s' => .next s'
    | none => .fault .stepOutsideActionList

end Sys2Proof.Machine
end

