-- ==== Sys2Proof/Machine/Port.lean ====
section
/-! DEFINITION. What one step does with the word the host offers (rules R101, R213), and what it does
when no word is accepted (rules R85, R240). -/

namespace Sys2Proof.Machine

/-- Steps 1 and 2 of rule R213, then the command itself. -/
def runWord (w : Word) (s : State) : Result :=
  match decode w with
  | some i => exec i s
  | none => .next s.refuseIllegal

/-- What the block does in one step, given what the host does: `rst` wins over everything (rules R240,
R242); while `busy` is 1 no word is accepted and the running command goes on (rules R30, R101); else
the word on offer is accepted and runs to its response, or as far as the environment answers (rules
R30, R85); with nothing on offer the block waits (rule R240). -/
def hostStep (s : State) : Result :=
  match s.host with
  | .reset :: rest => .next { s with host := rest }.hardwareReset
  | .offer w :: rest => if s.busy then resume s else runWord w (s.accept w rest)
  | [] => if s.busy then resume s else .next s.idle

/-- Put a word on the command port so that the next step accepts it: it is offered first, and no
command is running (rule R101; log entry 6). -/
def State.offerNow (s : State) (w : Word) : State :=
  { s with busy := false, host := .offer w :: s.host }

end Sys2Proof.Machine
end

