-- ==== Sys2Proof/Machine/Step.lean ====
section
/-! DEFINITION. One step of the machine, and how a word is put where the next step takes it from. -/

namespace Sys2Proof.Machine

/-- One step (rules R16, R17). An ill-formed configuration has no meaning (rule R8, U19). -/
def step (s : State) : Host.Outcome State Fault Refusal :=
  if s.cfg.wf then hostStep s else .refused .illFormedConfig

/-- `s` with the word of `nbits` bits on offer at the command port, so that the next step accepts and
runs it (log entry 6). -/
def State.withFetchWord (s : State) (nbits w : Nat) : State :=
  s.offerNow (BitVec.ofNat 64 (w % 2 ^ nbits))

end Sys2Proof.Machine
end

