-- ==== Sys2Proof/Safety.lean ====
section
/-! DEFINITION. What counts as a run that has gone wrong (rules R82, R211), and the invariant of the
machine: what holds of every state a run can reach. -/

namespace Sys2Proof.Machine

/-- A prescale write came outside sleep mode: "a run that has gone wrong" (rule R82). -/
def State.prescaleViolated (s : State) : Prop := s.env.device.violated = true

/-- The host broke the source's protocol and was told so (rule R211, U1). -/
def State.protocolBroken (s : State) : Prop := ∃ r ∈ s.responses, r.status = .notReady

/-- A run is safe so far when neither happened. -/
def State.Safe (s : State) : Prop := ¬ s.prescaleViolated ∧ ¬ s.protocolBroken

/-- The FSM states in which action `k` of a command can be the next one (rules R22, R155, R213). -/
def runsIn (i : Instr) (k : Nat) (f : Fsm) : Bool :=
  match i with
  | .openBus _ => f == .closed
  | .setup _ => if k = 0 then f == .closed else f == .opened
  | .reset => f == .opened || f == .ready
  | .wrreg _ _ | .rdreg _ | .setfreq _ _ | .setch _ _ _ => f == .ready

/-- The operand check of a command passes (rule R213 step 4). -/
def operandsOk : Instr → Bool
  | .setfreq _ f => f != 0
  | .setch ch _ _ => ch.toNat ≤ 15
  | .openBus _ | .wrreg _ _ | .rdreg _ | .reset | .setup _ => true

/-- The running command is one that passed every check of rule R213 and stands at an action of its
list (rules R27, R28). -/
def State.Running (s : State) : Prop :=
  ∃ i, decode s.cmd = some i ∧ s.step.toNat < actionCount i ∧
    runsIn i s.step.toNat s.fsm = true ∧ operandsOk i = true

/-- The invariant of the machine. -/
structure State.Inv (s : State) : Prop where
  /-- The device's register contents are in their one form (rules R60, R81). -/
  memory : s.env.device.reg.wf
  /-- A claim is held exactly while a handle exists (rules R25, R39 a, R156, R241). -/
  claim : s.env.device.claimed = s.isOpen
  /-- Between commands the sequencer is at rest (rules R12, R30). -/
  rest : s.busy = false → s.step = 0
  /-- While `busy` is 1 a command is at one of its actions (rules R27, R28). -/
  running : s.busy = true → s.Running
  /-- Outside FATAL `fatal_code` is 0x0 (rule R33). -/
  fatalCodeClear : s.fsm ≠ .fatal → s.fatalCode = .ok
  /-- In FATAL it is the status of the failed SETUP (rules R33, R219). -/
  fatalCodeCause : s.fsm = .fatal → s.fatalCode = .busOpenFailed ∨ s.fatalCode = .resetFailed
  /-- A response with an error carries no data (rule R32). -/
  errorData : s.respStatus ≠ .ok → s.respData = 0x00

end Sys2Proof.Machine
end

