-- ==== Sys2Proof/Certificates/Slice0/Obligations.lean ====
section
/-! DEFINITION. The statements about the machine. Each formalises rules of the spec over every state,
every configuration and every answer of the environment, unless it says otherwise. -/

open Sys2Proof Sys2Proof.Machine

namespace Sys2Proof.Statements

/-- The registers after a response (rules R12, R32). -/
abbrev ended (s : State) (status : Status) (data : Byte) : State :=
  { s with
    respValid := true, respStatus := status, respData := data, busy := false, step := 0,
    responses := s.responses ++ [⟨status, data⟩] }

/-- Rule R213 read as a table: the status a command is refused with, by the FSM state and its operands;
`none` where it starts its actions. -/
def refusalOf (i : Instr) (f : Fsm) : Option Status :=
  match f with
  | .fatal => some .fatal
  | .closed =>
    match i with
    | .openBus _ | .setup _ => none
    | .wrreg _ _ | .rdreg _ | .reset | .setfreq _ _ | .setch _ _ _ => some .noHandle
  | .opened =>
    match i with
    | .openBus _ | .setup _ => some .busOpenFailed
    | .reset => none
    | .wrreg _ _ | .rdreg _ | .setfreq _ _ | .setch _ _ _ => some .notReady
  | .ready =>
    match i with
    | .openBus _ | .setup _ => some .busOpenFailed
    | .reset | .wrreg _ _ | .rdreg _ => none
    | .setfreq _ f => if f = 0 then some .invalidFrequency else none
    | .setch ch _ _ => if ch.toNat > 15 then some .invalidChannel else none

/-- The rows of rule R22 that a command's outcome may take, besides leaving `fsm` as it is. A SETUP that
is not answered yet holds OPENED between its two actions (rule R22, last paragraph). -/
def fsmMove (i : Instr) (f g : Fsm) : Bool :=
  match i, f, g with
  | .openBus _, .closed, .opened => true
  | .setup _, .closed, .opened | .setup _, .closed, .ready | .setup _, .closed, .fatal => true
  | .setup _, .opened, .ready | .setup _, .opened, .fatal => true
  | .reset, .opened, .ready | .reset, .ready, .opened => true
  | _, _, _ => false

/-- The environment is the reference device alone: no scripted turn, no second master (rules R81, R84),
and `devaddr` is the device's address. -/
structure OnReferenceDevice (s : State) : Prop where
  wf : s.cfg.wf = true
  noScript : s.env.turns = []
  device : s.env.answering = .referenceDevice
  alone : s.cfg.externalMaster = false
  address : s.devaddr = s.cfg.deviceAddr

/-- The events a step added to the trace. -/
def addedEvents (s t : State) : List Event := t.trace.drop s.trace.length

/-- The bus address of an event. -/
def eventAddress : Event → Option BusAddr
  | .claim _ _ | .delay _ => none
  | .write a _ _ _ => some a
  | .read a _ _ => some a
  | .release a => some a

end Sys2Proof.Statements

open Sys2Proof.Statements

/-! ### Encoding -/

/-- Rule R113: a word decodes to the one row it selects, with its fields, and to nothing where it selects
none; and decoding an encoded command gives it back, whatever its operands. -/
def Obligations.DecodeOfEncodeIsTheCommand : Prop :=
  (∀ (w : Word) (o : Row), o.selects w = true → decode w = some (o.fields w)) ∧
  (∀ w : Word, (∀ o : Row, o.selects w = false) → decode w = none) ∧
  ∀ i : Instr, encode i = i.row.pattern ||| i.operandBits ∧ decode (encode i) = some i

/-- Every legal word is the encoding of the one command it decodes to, so no bit of it is dropped. -/
def Obligations.LegalWordIsTheEncodingOfItsCommand : Prop :=
  ∀ (w : Word) (i : Instr), decode w = some i → encode i = w

/-- No word selects two rows of the opcode map (rule R109). -/
def Obligations.OpcodeRowsAreExclusive : Prop :=
  ∀ (w : Word) (o o' : Row), o.selects w = true → o'.selects w = true → o = o'

/-- A word is illegal exactly when its opcode is unassigned or a must-be-zero field of its format is not
zero (rule R111), the fields being those of the format tables, not the mask column. -/
def Obligations.IllegalWordsAreReservedOpcodesOrReservedBits : Prop :=
  ∀ w : Word, decode w = none ↔
    (w.extractLsb' 56 8 = 0 ∨ 8 ≤ (w.extractLsb' 56 8).toNat) ∨
    ((w.extractLsb' 56 8 = 1 ∨ w.extractLsb' 56 8 = 5) ∧ w.extractLsb' 7 49 ≠ 0) ∨
    (w.extractLsb' 56 8 = 2 ∧ w.extractLsb' 16 40 ≠ 0) ∨
    (w.extractLsb' 56 8 = 3 ∧ (w.extractLsb' 16 40 ≠ 0 ∨ w.extractLsb' 0 8 ≠ 0)) ∨
    (w.extractLsb' 56 8 = 4 ∧ w.extractLsb' 0 56 ≠ 0) ∨
    (w.extractLsb' 56 8 = 6 ∧ w.extractLsb' 33 23 ≠ 0) ∨
    (w.extractLsb' 56 8 = 7 ∧
      (w.extractLsb' 40 16 ≠ 0 ∨ w.extractLsb' 28 4 ≠ 0 ∨ w.extractLsb' 12 4 ≠ 0))

/-- One word of each command, written out from the format tables (rules R103 to R109), and the two
illegal words rule R111 names. -/
def Obligations.SampleWordsDecode : Prop :=
  decode 0x0100000000000040 = some (.openBus 0x40) ∧
  decode 0x020000000000FE79 = some (.wrreg 0xFE 0x79) ∧
  decode 0x030000000000FE00 = some (.rdreg 0xFE) ∧
  decode 0x0400000000000000 = some .reset ∧
  decode 0x0500000000000040 = some (.setup 0x40) ∧
  decode 0x0600000100000320 = some (.setfreq true 800) ∧
  decode 0x0700000F01230ABC = some (.setch 15 0x123 0xABC) ∧
  decode 0 = none ∧ decode 0xFFFFFFFFFFFFFFFF = none

/-- A SETFREQ line in range assembles to `F = 16*f` exactly, and a line whose `f` is not a multiple of
1/16 or not below 2^32/16 is rejected (rule R114). -/
def Obligations.SetfreqLineAssemblesExactly : Prop :=
  ∀ (c : Config) (digits decimals : Nat) (rs : Bool),
    (∀ f : Nat, 16 * digits = f * 10 ^ decimals → f < 2 ^ 32 →
      assemble c (.setfreq digits decimals rs) = some (.setfreq rs (BitVec.ofNat 32 f))) ∧
    ((∀ f : Nat, 16 * digits = f * 10 ^ decimals → 2 ^ 32 ≤ f) →
      assemble c (.setfreq digits decimals rs) = none)

/-! ### The command port and the order of checks -/

/-- While no command runs and `rst` is low, one step accepts the word on offer, latches it, withdraws the
old response, and runs the command the word decodes to. -/
def Obligations.StepRunsTheOfferedCommand : Prop :=
  ∀ (s : State) (w : Word) (rest : List HostInput) (i : Instr),
    s.cfg.wf = true → s.busy = false → s.host = .offer w :: rest → decode w = some i →
    step s = exec i { s with cmd := w, respValid := false, host := rest }

/-- A word that `withFetchWord` puts on the command port is the one the next step runs. That it does so in a
busy state too, by setting `busy` to 0 first, is the model's choice (log entry 6): rule R101 lets a busy block
accept nothing. -/
def Obligations.FetchedWordIsRun : Prop :=
  ∀ (s : State) (w : Nat) (i : Instr), s.cfg.wf = true → decodeTableWord 64 w = some i →
    step (s.withFetchWord 64 w) =
      exec i { s with busy := false, cmd := BitVec.ofNat 64 w, respValid := false }

/-- An illegal word outside FATAL is answered `IllegalCommand` (0x8): no bus event, and no register changes
but `cmd` and the response registers (rule R209). -/
def Obligations.IllegalWordIsRefused : Prop :=
  Status.illegalCommand.code = 0x8 ∧
  ∀ (s : State) (w : Word) (rest : List HostInput),
    s.cfg.wf = true → s.busy = false → s.host = .offer w :: rest → s.fsm ≠ .fatal →
    (∀ o : Row, o.selects w = false) →
    step s = .next (ended { s with cmd := w, host := rest } .illegalCommand 0x00)

/-- In FATAL every word, legal or illegal, is answered `Fatal` (0xB), without a bus event and with
`fatal_code` kept (rule R212). That the word is latched in `cmd` in FATAL too is read from rules R26 and R101,
against the letter of rule R24 (log entry 13, DEDUCED). -/
def Obligations.FatalAnswersEveryWord : Prop :=
  Status.fatal.code = 0xB ∧
  ∀ (s : State) (w : Word) (rest : List HostInput),
    s.cfg.wf = true → s.busy = false → s.host = .offer w :: rest → s.fsm = .fatal →
    ∃ t, step s = .next t ∧ t.trace = s.trace ∧ t.fatalCode = s.fatalCode ∧
      t = ended { s with cmd := w, host := rest } .fatal 0x00

/-- While a command runs no other word is accepted: what the host offers stays on offer and `cmd` is
kept (rules R26, R30). -/
def Obligations.BusyBlockAcceptsNothing : Prop :=
  ∀ (s t : State) (w : Word) (rest : List HostInput),
    s.busy = true → s.host = .offer w :: rest → step s = .next t →
    t.host = .offer w :: rest ∧ t.cmd = s.cmd

/-- After reset, and whenever nothing runs, nothing is offered and no time-passing turn of the environment
stands next, the block waits and nothing changes (rule R240). -/
def Obligations.IdleBlockWaits : Prop :=
  ∀ s : State, s.cfg.wf = true → s.busy = false → s.host = [] →
    (∀ foreign rest, s.env.turns ≠ ⟨foreign, none⟩ :: rest) → step s = .next s

/-- Rule R8: what makes a configuration well-formed, that the defaults are, and that an ill-formed one gives
no command and no step a meaning. -/
def Obligations.IllFormedConfigurationIsRefused : Prop :=
  (∀ c : Config, c.wf = true ↔
    0 < c.oscClockHz ∧ 500 ≤ c.tSettleUs ∧
    c.prescaleMin.toNat ≤ c.prescaleMax.toNat ∧ c.prescaleMax.toNat ≤ 0xFF ∧
    (∃ k < 8, c.sleepMask = 1 <<< k) ∧ (∃ k < 8, c.restartMask = 1 <<< k) ∧
    c.sleepMask ≠ c.restartMask ∧ c.chBaseAddr.toNat + 4 * 16 - 1 ≤ 0xFF ∧
    [c.mode1Addr, c.mode2Addr, c.prescaleAddr].Nodup ∧
    ∀ r ∈ [c.mode1Addr, c.mode2Addr, c.prescaleAddr],
      r.toNat < c.chBaseAddr.toNat ∨ c.chBaseAddr.toNat + 63 < r.toNat) ∧
  Config.wf {} = true ∧
  ∀ s : State, s.cfg.wf = false →
    step s = .refused .illFormedConfig ∧ ∀ i : Instr, exec i s = .refused .illFormedConfig

/-- Rule R213: the checks of an accepted word in their order (FATAL, decoding, the state gate, the operand).
The first that fails is the response, and nothing but `cmd` and the response registers changes; a word that
passes all of them asks the bus for its first action, whatever the environment answers. That the word is
latched in `cmd` in FATAL too is read from rules R26 and R101, against the letter of rule R24 (log entry 13,
DEDUCED). -/
def Obligations.FirstFailingCheckIsTheResponse : Prop :=
  ∀ (s : State) (w : Word) (rest : List HostInput),
    s.cfg.wf = true → s.busy = false → s.host = .offer w :: rest →
    let s' := { s with cmd := w, respValid := false, host := rest }
    (s.fsm = .fatal → step s = .next (ended s' .fatal 0x00)) ∧
    (s.fsm ≠ .fatal → decode w = none → step s = .next (ended s' .illegalCommand 0x00)) ∧
    (∀ i, s.fsm ≠ .fatal → decode w = some i →
      (∀ status, refusalOf i s.fsm = some status → step s = .next (ended s' status 0x00)) ∧
      (refusalOf i s.fsm = none →
        ∀ q, actionRequest i 0 { s' with busy := true, step := 0 } = some q →
          ∃ t, step s = .next t ∧
            s.trace ++ q.event (s.env.respond s.cfg q).1 <+: t.trace))

/-! ### The commands -/

/-- OPEN (rule R131): operand and opcode, the gate, the one claim, what success and failure leave, the flags,
and that the gates then refuse everything but RESET. -/
def Obligations.OpenClaimsTheBus : Prop :=
  ∀ (a : BusAddr) (s : State),
    (∀ w, decode w = some (.openBus a) → a = w.extractLsb' 0 7 ∧ opcodeField w = 0x01) ∧
    (s.cfg.wf = true → s.fsm = .opened ∨ s.fsm = .ready →
      exec (.openBus a) s = .next (ended s .busOpenFailed 0x00)) ∧
    (s.cfg.wf = true → s.fsm = .closed →
      (∀ d e, s.env.respond s.cfg (.claim a) = (.ok d, e) →
        ∃ t, exec (.openBus a) s = .next t ∧ t.isOpen = true ∧ t.isReady = false ∧
          (∀ i, i ≠ .reset → (refusalOf i t.fsm).isSome = true) ∧
          t = ended { s with
            env := e, devaddr := a, fsm := .opened, trace := s.trace ++ [.claim a true] } .ok 0x00) ∧
      (∀ e, s.env.respond s.cfg (.claim a) = (.fail, e) →
        exec (.openBus a) s = .next
          (ended { s with env := e, trace := s.trace ++ [.claim a false] } .busOpenFailed 0x00)))

/-- WRREG (rule R135): operands and opcode, the two gates, the one write, and both outcomes. -/
def Obligations.WrregWritesOneRegister : Prop :=
  ∀ (r : RegAddr) (v : Byte) (s : State),
    (∀ w, decode w = some (.wrreg r v) →
      r = w.extractLsb' 8 8 ∧ v = w.extractLsb' 0 8 ∧ opcodeField w = 0x02) ∧
    (s.cfg.wf = true → s.fsm = .closed →
      exec (.wrreg r v) s = .next (ended s .noHandle 0x00)) ∧
    (s.cfg.wf = true → s.fsm = .opened →
      exec (.wrreg r v) s = .next (ended s .notReady 0x00)) ∧
    (s.cfg.wf = true → s.fsm = .ready →
      (∀ d e, s.env.respond s.cfg (.write s.devaddr r v) = (.ok d, e) →
        exec (.wrreg r v) s = .next
          (ended { s with env := e, trace := s.trace ++ [.write s.devaddr r v true] } .ok 0x00)) ∧
      (∀ e, s.env.respond s.cfg (.write s.devaddr r v) = (.fail, e) →
        exec (.wrreg r v) s = .next
          (ended { s with env := e, trace := s.trace ++ [.write s.devaddr r v false] }
            .busWriteFailed 0x00)))

/-- RDREG (rule R139): operand and opcode, the two gates, the one read, and both outcomes. -/
def Obligations.RdregReturnsTheByteRead : Prop :=
  ∀ (r : RegAddr) (s : State),
    (∀ w, decode w = some (.rdreg r) → r = w.extractLsb' 8 8 ∧ opcodeField w = 0x03) ∧
    (s.cfg.wf = true → s.fsm = .closed → exec (.rdreg r) s = .next (ended s .noHandle 0x00)) ∧
    (s.cfg.wf = true → s.fsm = .opened → exec (.rdreg r) s = .next (ended s .notReady 0x00)) ∧
    (s.cfg.wf = true → s.fsm = .ready →
      (∀ d e, s.env.respond s.cfg (.read s.devaddr r) = (.ok d, e) →
        exec (.rdreg r) s = .next
          (ended { s with env := e, trace := s.trace ++ [.read s.devaddr r (some d)] } .ok d)) ∧
      (∀ e, s.env.respond s.cfg (.read s.devaddr r) = (.fail, e) →
        exec (.rdreg r) s = .next
          (ended { s with env := e, trace := s.trace ++ [.read s.devaddr r none] }
            .busReadFailed 0x00)))

/-- RESET (rule R151): opcode, the gate, the one write of 0x00 to MODE1, both outcomes and the flags. -/
def Obligations.ResetWritesMode1 : Prop :=
  ∀ s : State,
    (∀ w, decode w = some .reset → opcodeField w = 0x04) ∧
    (s.cfg.wf = true → s.fsm = .closed → exec .reset s = .next (ended s .noHandle 0x00)) ∧
    (s.cfg.wf = true → s.fsm = .opened ∨ s.fsm = .ready →
      (∀ d e, s.env.respond s.cfg (.write s.devaddr s.cfg.mode1Addr 0x00) = (.ok d, e) →
        ∃ t, exec .reset s = .next t ∧ t.isReady = true ∧ t.isOpen = true ∧
          t = ended { s with
            env := e, fsm := .ready
            trace := s.trace ++ [.write s.devaddr s.cfg.mode1Addr 0x00 true] } .ok 0x00) ∧
      (∀ e, s.env.respond s.cfg (.write s.devaddr s.cfg.mode1Addr 0x00) = (.fail, e) →
        ∃ t, exec .reset s = .next t ∧ t.isReady = false ∧ t.isOpen = true ∧
          t = ended { s with
            env := e, fsm := .opened
            trace := s.trace ++ [.write s.devaddr s.cfg.mode1Addr 0x00 false] }
            .resetFailed 0x00))

/-- SETUP (rule R155): operand and opcode, the gate, the claim and the reset write, the release and FATAL
entry on failure, and the flags. -/
def Obligations.SetupClaimsThenResets : Prop :=
  ∀ (a : BusAddr) (s : State),
    (∀ w, decode w = some (.setup a) → a = w.extractLsb' 0 7 ∧ opcodeField w = 0x05) ∧
    (s.cfg.wf = true → s.fsm = .opened ∨ s.fsm = .ready →
      exec (.setup a) s = .next (ended s .busOpenFailed 0x00)) ∧
    (s.cfg.wf = true → s.fsm = .closed →
      (∀ e, s.env.respond s.cfg (.claim a) = (.fail, e) →
        ∃ t, exec (.setup a) s = .next t ∧ t.isOpen = false ∧ t.isReady = false ∧
          t.isFatal = true ∧
          t = ended { s with
            env := e, fsm := .fatal, fatalCode := .busOpenFailed
            trace := s.trace ++ [.claim a false] } .busOpenFailed 0x00) ∧
      (∀ d e d' e', s.env.respond s.cfg (.claim a) = (.ok d, e) →
        e.respond s.cfg (.write a s.cfg.mode1Addr 0x00) = (.ok d', e') →
        ∃ t, exec (.setup a) s = .next t ∧ t.isOpen = true ∧ t.isReady = true ∧
          t = ended { s with
            env := e', fsm := .ready, devaddr := a
            trace := s.trace ++ [.claim a true, .write a s.cfg.mode1Addr 0x00 true] } .ok 0x00) ∧
      (∀ d e e', s.env.respond s.cfg (.claim a) = (.ok d, e) →
        e.respond s.cfg (.write a s.cfg.mode1Addr 0x00) = (.fail, e') →
        ∃ t, exec (.setup a) s = .next t ∧ t.isOpen = false ∧ t.isReady = false ∧
          t.isFatal = true ∧
          t = ended { s with
            env := { e' with device := { e'.device with claimed := false } }
            fsm := .fatal, fatalCode := .resetFailed, devaddr := a
            trace := s.trace ++
              [.claim a true, .write a s.cfg.mode1Addr 0x00 false, .release a] }
            .resetFailed 0x00))

/-- SETFREQ (rules R107, R174), its operands and opcode, its gates and its operand check: three refusals
without a bus event. -/
def Obligations.SetfreqRefusals : Prop :=
  ∀ (rs : Bool) (f : BitVec 32) (s : State),
    (∀ w, decode w = some (.setfreq rs f) →
      f = w.extractLsb' 0 32 ∧ rs = w.getLsbD 32 ∧ opcodeField w = 0x06) ∧
    (s.cfg.wf = true →
      (s.fsm = .closed → exec (.setfreq rs f) s = .next (ended s .noHandle 0x00)) ∧
      (s.fsm = .opened → exec (.setfreq rs f) s = .next (ended s .notReady 0x00)) ∧
      (s.fsm = .ready → f = 0 →
        exec (.setfreq rs f) s = .next (ended s .invalidFrequency 0x00)))

/-- SETFREQ (rules R174, R175) when every action is answered `ok`: read, sleep write, wait, prescale, wake
write, wait, and with `RS` = 1 the restart write; the bytes written, and every register afterwards. -/
def Obligations.SetfreqRunsTheSixSteps : Prop :=
  ∀ (rs : Bool) (f : BitVec 32) (s : State) (m d1 d2 d3 d4 d5 : Byte) (e0 e1 e2 e3 e4 e5 : Env),
    s.cfg.wf = true → s.fsm = .ready → f ≠ 0 →
    s.env.respond s.cfg (.read s.devaddr s.cfg.mode1Addr) = (.ok m, e0) →
    e0.respond s.cfg (.write s.devaddr s.cfg.mode1Addr (m ||| s.cfg.sleepMask)) = (.ok d1, e1) →
    e1.respond s.cfg (.delay s.cfg.tSettleUs) = (.ok d2, e2) →
    e2.respond s.cfg (.write s.devaddr s.cfg.prescaleAddr (prescaleByte s.cfg f)) = (.ok d3, e3) →
    e3.respond s.cfg (.write s.devaddr s.cfg.mode1Addr (m &&& ~~~s.cfg.sleepMask)) = (.ok d4, e4) →
    e4.respond s.cfg (.delay s.cfg.tSettleUs) = (.ok d5, e5) →
    let six : List Event :=
      [.read s.devaddr s.cfg.mode1Addr (some m),
       .write s.devaddr s.cfg.mode1Addr (m ||| s.cfg.sleepMask) true,
       .delay s.cfg.tSettleUs,
       .write s.devaddr s.cfg.prescaleAddr (prescaleByte s.cfg f) true,
       .write s.devaddr s.cfg.mode1Addr (m &&& ~~~s.cfg.sleepMask) true,
       .delay s.cfg.tSettleUs]
    let after := { s with oldmode := m, presc := prescaleByte s.cfg f }
    (rs = false → exec (.setfreq rs f) s = .next
      (ended { after with env := e5, trace := s.trace ++ six } .ok 0x00)) ∧
    (rs = true →
      let v := m &&& ~~~s.cfg.sleepMask ||| s.cfg.restartMask
      (∀ d6 e6, e5.respond s.cfg (.write s.devaddr s.cfg.mode1Addr v) = (.ok d6, e6) →
        exec (.setfreq rs f) s = .next (ended { after with
          env := e6
          trace := s.trace ++ six ++ [.write s.devaddr s.cfg.mode1Addr v true] } .ok 0x00)) ∧
      (∀ e6, e5.respond s.cfg (.write s.devaddr s.cfg.mode1Addr v) = (.fail, e6) →
        exec (.setfreq rs f) s = .next (ended { after with
          env := e6
          trace := s.trace ++ six ++ [.write s.devaddr s.cfg.mode1Addr v false] }
          .busWriteFailed 0x00)))

/-- SETFREQ cut short (rules R174, R176) at its read, its sleep write, its prescale write or its wake write:
the status, the events up to the failing one and none after it, no delay after a failed write, `presc`
latched in every case and `oldmode` once the read was answered. -/
def Obligations.SetfreqStopsAtTheFirstFailure : Prop :=
  ∀ (rs : Bool) (f : BitVec 32) (s : State), s.cfg.wf = true → s.fsm = .ready → f ≠ 0 →
    let start := { s with presc := prescaleByte s.cfg f }
    (∀ e, s.env.respond s.cfg (.read s.devaddr s.cfg.mode1Addr) = (.fail, e) →
      exec (.setfreq rs f) s = .next (ended { start with
        env := e, trace := s.trace ++ [.read s.devaddr s.cfg.mode1Addr none] }
        .busReadFailed 0x00)) ∧
    (∀ m e0, s.env.respond s.cfg (.read s.devaddr s.cfg.mode1Addr) = (.ok m, e0) →
      let q1 := Request.write s.devaddr s.cfg.mode1Addr (m ||| s.cfg.sleepMask)
      let q3 := Request.write s.devaddr s.cfg.prescaleAddr (prescaleByte s.cfg f)
      let q4 := Request.write s.devaddr s.cfg.mode1Addr (m &&& ~~~s.cfg.sleepMask)
      let t0 := s.trace ++ [.read s.devaddr s.cfg.mode1Addr (some m)]
      (∀ e, e0.respond s.cfg q1 = (.fail, e) →
        exec (.setfreq rs f) s = .next (ended { start with
          oldmode := m, env := e
          trace := t0 ++ [.write s.devaddr s.cfg.mode1Addr (m ||| s.cfg.sleepMask) false] }
          .busWriteFailed 0x00)) ∧
      (∀ d1 e1 d2 e2, e0.respond s.cfg q1 = (.ok d1, e1) →
        e1.respond s.cfg (.delay s.cfg.tSettleUs) = (.ok d2, e2) →
        let t2 := t0 ++ [.write s.devaddr s.cfg.mode1Addr (m ||| s.cfg.sleepMask) true,
          .delay s.cfg.tSettleUs]
        (∀ e, e2.respond s.cfg q3 = (.fail, e) →
          exec (.setfreq rs f) s = .next (ended { start with
            oldmode := m, env := e
            trace := t2 ++ [.write s.devaddr s.cfg.prescaleAddr (prescaleByte s.cfg f) false] }
            .busWriteFailed 0x00)) ∧
        (∀ d3 e3 e, e2.respond s.cfg q3 = (.ok d3, e3) → e3.respond s.cfg q4 = (.fail, e) →
          exec (.setfreq rs f) s = .next (ended { start with
            oldmode := m, env := e
            trace := t2 ++ [.write s.devaddr s.cfg.prescaleAddr (prescaleByte s.cfg f) true,
              .write s.devaddr s.cfg.mode1Addr (m &&& ~~~s.cfg.sleepMask) false] }
            .busWriteFailed 0x00))))

/-- SETCH (rules R181, R182): operands and opcode, the gates and the channel check, the four writes in
ascending order, and what a failure at any of them leaves. -/
def Obligations.SetchWritesFourRegisters : Prop :=
  ∀ (ch : Byte) (on off : Tick) (s : State),
    (∀ w, decode w = some (.setch ch on off) →
      ch = w.extractLsb' 32 8 ∧ on = w.extractLsb' 16 12 ∧ off = w.extractLsb' 0 12 ∧
        opcodeField w = 0x07) ∧
    (s.cfg.wf = true → s.fsm = .closed →
      exec (.setch ch on off) s = .next (ended s .noHandle 0x00)) ∧
    (s.cfg.wf = true → s.fsm = .opened →
      exec (.setch ch on off) s = .next (ended s .notReady 0x00)) ∧
    (s.cfg.wf = true → s.fsm = .ready → ch.toNat > 15 →
      exec (.setch ch on off) s = .next (ended s .invalidChannel 0x00)) ∧
    (s.cfg.wf = true → s.fsm = .ready → ch.toNat ≤ 15 →
      let b := s.cfg.chBaseAddr + 4 * ch
      let w0 := fun ok => Event.write s.devaddr b (on.extractLsb' 0 8) ok
      let w1 := fun ok => Event.write s.devaddr (b + 1) (0#4 ++ on.extractLsb' 8 4) ok
      let w2 := fun ok => Event.write s.devaddr (b + 2) (off.extractLsb' 0 8) ok
      let w3 := fun ok => Event.write s.devaddr (b + 3) (0#4 ++ off.extractLsb' 8 4) ok
      let q0 := Request.write s.devaddr b (on.extractLsb' 0 8)
      let q1 := Request.write s.devaddr (b + 1) (0#4 ++ on.extractLsb' 8 4)
      let q2 := Request.write s.devaddr (b + 2) (off.extractLsb' 0 8)
      let q3 := Request.write s.devaddr (b + 3) (0#4 ++ off.extractLsb' 8 4)
      (∀ e, s.env.respond s.cfg q0 = (.fail, e) → exec (.setch ch on off) s = .next
        (ended { s with env := e, trace := s.trace ++ [w0 false] } .busWriteFailed 0x00)) ∧
      (∀ d0 e0, s.env.respond s.cfg q0 = (.ok d0, e0) →
        (∀ e, e0.respond s.cfg q1 = (.fail, e) → exec (.setch ch on off) s = .next
          (ended { s with env := e, trace := s.trace ++ [w0 true, w1 false] }
            .busWriteFailed 0x00)) ∧
        (∀ d1 e1, e0.respond s.cfg q1 = (.ok d1, e1) →
          (∀ e, e1.respond s.cfg q2 = (.fail, e) → exec (.setch ch on off) s = .next
            (ended { s with env := e, trace := s.trace ++ [w0 true, w1 true, w2 false] }
              .busWriteFailed 0x00)) ∧
          (∀ d2 e2, e1.respond s.cfg q2 = (.ok d2, e2) →
            (∀ e, e2.respond s.cfg q3 = (.fail, e) → exec (.setch ch on off) s = .next
              (ended { s with
                env := e, trace := s.trace ++ [w0 true, w1 true, w2 true, w3 false] }
                .busWriteFailed 0x00)) ∧
            (∀ d3 e3, e2.respond s.cfg q3 = (.ok d3, e3) → exec (.setch ch on off) s = .next
              (ended { s with
                env := e3, trace := s.trace ++ [w0 true, w1 true, w2 true, w3 true] }
                .ok 0x00))))))

/-- A command whose first request is not answered stays running at its first action: no response, no
event; every command (rules R30, R85). -/
def Obligations.UnansweredCommandKeepsRunning : Prop :=
  ∀ (i : Instr) (s : State) (q : Request) (e : Env), s.cfg.wf = true →
    refusalOf i s.fsm = none →
    actionRequest i 0 { s with busy := true, step := 0 } = some q →
    s.env.respond s.cfg q = (.pending, e) →
    ∃ t, exec i s = .next t ∧ t.busy = true ∧ t.step = 0 ∧ t.env = e ∧ t.trace = s.trace ∧
      t.responses = s.responses ∧ t.fsm = s.fsm ∧ t.devaddr = s.devaddr ∧ t.cmd = s.cmd ∧
      t.oldmode = s.oldmode

/-- Where the environment lets a command wait makes no difference to what it does: a completed command,
made to wait at any one point and then continued, ends in the very same state, and a turn that lets it wait
only after its end is left untaken (rules R27, R28, R71, R85). That a command is one step, and that a turn
without a reply is how it waits, are the model's choices (log entries 8 and 10). -/
def Obligations.WaitingDoesNotChangeACommand : Prop :=
  ∀ (i : Instr) (s t : State) (before after : List EnvTurn),
    s.cfg.wf = true → decode s.cmd = some i → s.host = [] → s.env.turns = before ++ after →
    exec i s = .next t → t.busy = false →
    ∃ u, exec i { s with
        env := { s.env with turns := before ++ ⟨[], none⟩ :: after } } = .next u ∧
      ((u.busy = true ∧ step u = .next t) ∨
       (u.busy = false ∧ ∃ n, u = { t with
          env := { t.env with turns := before.drop n ++ ⟨[], none⟩ :: after } } ∧
          t.env.turns = before.drop n ++ after))

/-- Rule R158: when nothing fails, SETUP and the two commands OPEN and RESET give the same trace and the same
final state, and differ only in the number of responses. When the claim fails, OPEN leaves CLOSED and SETUP
FATAL; when the reset write fails, the pair leaves OPENED with the claim held, and SETUP ends in FATAL with
the claim given up. -/
def Obligations.SetupIsOpenThenReset : Prop :=
  ∀ (a : BusAddr) (s : State), s.cfg.wf = true → s.fsm = .closed →
    (∀ d d' e e', s.env.respond s.cfg (.claim a) = (.ok d, e) →
      e.respond s.cfg (.write a s.cfg.mode1Addr 0x00) = (.ok d', e') →
      ∃ t u v, exec (.setup a) s = .next t ∧ exec (.openBus a) s = .next u ∧
        exec .reset u = .next v ∧ t.fsm = .ready ∧ t.devaddr = a ∧
        t.responses = s.responses ++ [⟨.ok, 0x00⟩] ∧
        v = { t with responses := s.responses ++ [⟨.ok, 0x00⟩, ⟨.ok, 0x00⟩] }) ∧
    (∀ e, s.env.respond s.cfg (.claim a) = (.fail, e) →
      ∃ t u, exec (.setup a) s = .next t ∧ exec (.openBus a) s = .next u ∧
        t.trace = u.trace ∧ t.fsm = .fatal ∧ u.fsm = .closed ∧
        refusalOf (.openBus a) u.fsm = none) ∧
    (∀ d e e', s.env.respond s.cfg (.claim a) = (.ok d, e) →
      e.respond s.cfg (.write a s.cfg.mode1Addr 0x00) = (.fail, e') →
      ∃ t u v, exec (.setup a) s = .next t ∧ exec (.openBus a) s = .next u ∧
        exec .reset u = .next v ∧ t.trace = v.trace ++ [.release a] ∧
        t.fsm = .fatal ∧ t.env.device.claimed = false ∧
        v.fsm = .opened ∧ v.env.device.claimed = true ∧ refusalOf .reset v.fsm = none)

/-! ### The reference device -/

/-- Rule R81: the reference device at first, and its answers to a claim, a release, a write and a read, with
the violated flag. -/
def Obligations.ReferenceDeviceAnswers : Prop :=
  (Device.initial.claimed = false ∧ Device.initial.violated = false ∧
    ∀ x, memGet Device.initial.reg x = none) ∧
  (∀ s : State, s.releaseHandle.env.device = { s.env.device with claimed := false }) ∧
  ∀ (cfg : Config) (e : Env), e.turns = [] → e.answering = .referenceDevice →
    cfg.externalMaster = false →
    (∀ a, e.device.claimed = true → ∃ e', e.respond cfg (.claim a) = (.fail, e') ∧
      e'.device = e.device) ∧
    (∀ a, e.device.claimed = false → ∃ d e', e.respond cfg (.claim a) = (.ok d, e') ∧
      e'.device = { e.device with claimed := true }) ∧
    (∀ a r v, a ≠ cfg.deviceAddr → ∃ e', e.respond cfg (.write a r v) = (.fail, e') ∧
      e'.device = e.device) ∧
    (∀ r v, (r = cfg.prescaleAddr ∧
        ¬ ∃ m, memGet e.device.reg cfg.mode1Addr.toNat = some m ∧ m &&& cfg.sleepMask ≠ 0) →
      ∃ d e', e.respond cfg (.write cfg.deviceAddr r v) = (.ok d, e') ∧
        e'.device = { e.device with violated := true }) ∧
    (∀ r v, ¬ (r = cfg.prescaleAddr ∧
        ¬ ∃ m, memGet e.device.reg cfg.mode1Addr.toNat = some m ∧ m &&& cfg.sleepMask ≠ 0) →
      ∃ d e', e.respond cfg (.write cfg.deviceAddr r v) = (.ok d, e') ∧
        e'.device.claimed = e.device.claimed ∧ e'.device.violated = e.device.violated ∧
        memGet e'.device.reg r.toNat = some v ∧
        ∀ x, x ≠ r.toNat → memGet e'.device.reg x = memGet e.device.reg x) ∧
    (∀ a r, a ≠ cfg.deviceAddr → ∃ e', e.respond cfg (.read a r) = (.fail, e') ∧
      e'.device = e.device) ∧
    (∀ r v, memGet e.device.reg r.toNat = some v →
      ∃ e', e.respond cfg (.read cfg.deviceAddr r) = (.ok v, e') ∧ e'.device = e.device) ∧
    (∀ r, memGet e.device.reg r.toNat = none →
      ∃ d e', e.respond cfg (.read cfg.deviceAddr r) = (.ok d, e') ∧ e'.device = e.device)

/-- Against the reference device WRREG stores its byte and leaves every other register alone; to PRESCALE
outside sleep mode it stores nothing and the run has gone wrong (rules R81, R82, R136). -/
def Obligations.WrregOnTheReferenceDevice : Prop :=
  ∀ (r : RegAddr) (v : Byte) (s : State), OnReferenceDevice s → s.fsm = .ready →
    ∃ t, exec (.wrreg r v) s = .next t ∧ t.respStatus = .ok ∧ t.fsm = .ready ∧
      (r = s.cfg.prescaleAddr → s.env.device.asleep s.cfg = false →
        t.env.device.violated = true ∧
        ∀ x, memGet t.env.device.reg x = memGet s.env.device.reg x) ∧
      (r ≠ s.cfg.prescaleAddr ∨ s.env.device.asleep s.cfg = true →
        t.env.device.violated = s.env.device.violated ∧
        memGet t.env.device.reg r.toNat = some v ∧
        ∀ x, x ≠ r.toNat → memGet t.env.device.reg x = memGet s.env.device.reg x)

/-- Against the reference device the commands that store nothing leave every register of the device and the
violated flag as they were: OPEN, RDREG, and every command that is refused (rules R11, R81). -/
def Obligations.CommandsThatStoreNothingKeepTheDevice : Prop :=
  ∀ (i : Instr) (s : State), s.cfg.wf = true → s.env.turns = [] →
    s.env.answering = .referenceDevice → s.cfg.externalMaster = false →
    ((∃ a, i = .openBus a) ∨ (∃ r, i = .rdreg r) ∨ (refusalOf i s.fsm).isSome = true) →
    ∃ t, exec i s = .next t ∧ t.env.device.reg = s.env.device.reg ∧
      t.env.device.violated = s.env.device.violated

/-- Against the reference device RDREG returns the byte a WRREG just before it wrote to the register, for
every register but PRESCALE (rule R81). -/
def Obligations.RdregReadsBackOnTheReferenceDevice : Prop :=
  ∀ (r : RegAddr) (v : Byte) (s : State), OnReferenceDevice s → s.fsm = .ready →
    r ≠ s.cfg.prescaleAddr →
    ∃ t u, exec (.wrreg r v) s = .next t ∧ exec (.rdreg r) t = .next u ∧
      u.respStatus = .ok ∧ u.respData = v

/-- Against the reference device a successful RESET leaves MODE1 at 0x00 and every other register as it was
(rules R41, R150, R151). -/
def Obligations.ResetOnTheReferenceDevice : Prop :=
  ∀ s : State, OnReferenceDevice s → s.fsm = .opened ∨ s.fsm = .ready →
    ∃ t, exec .reset s = .next t ∧ t.fsm = .ready ∧ t.respStatus = .ok ∧
      memGet t.env.device.reg s.cfg.mode1Addr.toNat = some 0x00 ∧
      ∀ x, x ≠ s.cfg.mode1Addr.toNat → memGet t.env.device.reg x = memGet s.env.device.reg x

/-- SETUP with an address that is not the device's ends in FATAL with the claim given up and the device's
registers as they were; with the device's own address it ends in READY with MODE1 at 0x00 (rule R157 e). -/
def Obligations.SetupOnTheReferenceDevice : Prop :=
  ∀ (a : BusAddr) (s : State), s.cfg.wf = true → s.env.turns = [] →
    s.env.answering = .referenceDevice → s.cfg.externalMaster = false → s.fsm = .closed →
    s.env.device.claimed = false →
    ∃ t, exec (.setup a) s = .next t ∧ t.devaddr = a ∧
      (a ≠ s.cfg.deviceAddr → t.fsm = .fatal ∧ t.fatalCode = .resetFailed ∧
        t.env.device = s.env.device) ∧
      (a = s.cfg.deviceAddr → t.fsm = .ready ∧ t.env.device.claimed = true ∧
        memGet t.env.device.reg s.cfg.mode1Addr.toNat = some 0x00 ∧
        ∀ x, x ≠ s.cfg.mode1Addr.toNat → memGet t.env.device.reg x = memGet s.env.device.reg x)

/-- Against the reference device SETFREQ completes, whether or not MODE1 has a value yet (then a free byte is
read), leaves the device awake with the computed prescale, the MODE1 bits besides sleep as read (with `RS` = 1
the restart bit set), the violated flag and every other register as they were (rules R36, R81, R174, R175,
R251). -/
def Obligations.SetfreqOnTheReferenceDevice : Prop :=
  ∀ (rs : Bool) (f : BitVec 32) (s : State), OnReferenceDevice s → s.fsm = .ready → f ≠ 0 →
    ∃ t m, exec (.setfreq rs f) s = .next t ∧ t.respStatus = .ok ∧ t.fsm = .ready ∧
      (∀ m', memGet s.env.device.reg s.cfg.mode1Addr.toNat = some m' → m = m') ∧
      t.oldmode = m ∧
      t.env.device.asleep s.cfg = false ∧ t.env.device.violated = s.env.device.violated ∧
      memGet t.env.device.reg s.cfg.prescaleAddr.toNat = some (prescaleByte s.cfg f) ∧
      memGet t.env.device.reg s.cfg.mode1Addr.toNat =
        some (if rs then m &&& ~~~s.cfg.sleepMask ||| s.cfg.restartMask
          else m &&& ~~~s.cfg.sleepMask) ∧
      ∀ x, x ≠ s.cfg.prescaleAddr.toNat → x ≠ s.cfg.mode1Addr.toNat →
        memGet t.env.device.reg x = memGet s.env.device.reg x

/-- Against the reference device SETCH completes and writes the four registers of its channel, low byte at
the lower address, and leaves every other register as it was (rules R62, R69, R181). -/
def Obligations.SetchOnTheReferenceDevice : Prop :=
  ∀ (ch : Byte) (on off : Tick) (s : State), OnReferenceDevice s → s.fsm = .ready →
    ch.toNat ≤ 15 →
    let b := s.cfg.chBaseAddr.toNat + 4 * ch.toNat
    ∃ t l h l' h', exec (.setch ch on off) s = .next t ∧ t.respStatus = .ok ∧ t.fsm = .ready ∧
      memGet t.env.device.reg b = some l ∧ memGet t.env.device.reg (b + 1) = some h ∧
      memGet t.env.device.reg (b + 2) = some l' ∧ memGet t.env.device.reg (b + 3) = some h' ∧
      l.toNat + 256 * h.toNat = on.toNat ∧ l'.toNat + 256 * h'.toNat = off.toNat ∧
      t.env.device.violated = s.env.device.violated ∧
      ∀ x, x < b ∨ b + 3 < x → memGet t.env.device.reg x = memGet s.env.device.reg x

/-- Against the reference device, without a second master, no command but WRREG sets the violated flag,
whatever MODE1 held; the environment is the reference device alone afterwards too (rule R82). -/
def Obligations.CompositeCommandsKeepThePrescaleRule : Prop :=
  ∀ (i : Instr) (s : State), (∀ r v, i ≠ .wrreg r v) → s.cfg.wf = true →
    s.env.turns = [] → s.env.answering = .referenceDevice → s.cfg.externalMaster = false →
    ∃ t, exec i s = .next t ∧ t.env.device.violated = s.env.device.violated ∧
      t.cfg = s.cfg ∧ t.env.turns = [] ∧ t.env.answering = .referenceDevice

/-- Without a second master no foreign transaction occurs (rule R84): what any turn says of one has no effect
on any request, with or without a reply; a request that is not answered and an idle step leave the device as it
was; and the reference device's own turn does to the device what its answer does. -/
def Obligations.NoSecondMasterNoForeignTransaction : Prop :=
  ∀ s : State, s.cfg.externalMaster = false →
    (∀ q foreign reply rest,
      let r := Env.respond s.cfg q { s.env with turns := ⟨foreign, reply⟩ :: rest }
      let r' := Env.respond s.cfg q { s.env with turns := ⟨[], reply⟩ :: rest }
      r.1 = r'.1 ∧ r.2.device = r'.2.device) ∧
    (∀ q e, s.env.respond s.cfg q = (.pending, e) → e.device = s.env.device) ∧
    (∀ q, s.env.turns = [] → s.env.answering = .referenceDevice →
      ∃ draw, ((s.env.respond s.cfg q).1, (s.env.respond s.cfg q).2.device) =
        s.env.device.answer s.cfg draw q) ∧
    (∀ t, s.busy = false → s.host = [] → step s = .next t → t.env.device = s.env.device)

/-! ### The whole machine -/

/-- The registers at reset (rule R40): every value the rule states, and the level outputs. -/
def Obligations.ResetValues : Prop :=
  let s := State.reset
  s.fsm.code = 0b00 ∧ s.devaddr = 0x00 ∧ s.cmd = 0 ∧ s.busy = false ∧ s.step = 0 ∧
    s.respValid = false ∧ s.respStatus.code = 0x0 ∧ s.respData = 0x00 ∧ s.fatalCode.code = 0x0 ∧
    s.isOpen = false ∧ s.isReady = false ∧ s.isFatal = false ∧ s.cmdReady = true

/-- The invariant holds at reset. -/
def Obligations.InvariantAtReset : Prop := State.reset.Inv

/-- Every step keeps the invariant: the device's memory form, a claim exactly while a handle exists, the
sequencer at rest between commands and at an action of its list during one, `fatal_code` the cause of
FATAL and 0x0 otherwise, and no data with an error status. -/
def Obligations.EveryStepKeepsTheInvariant : Prop :=
  ∀ s t : State, s.Inv → step s = .next t → t.Inv

/-- Under the invariant and a well-formed configuration there is always a next state, whatever the host
offers and the environment answers (rules R80, R200). That there is one also while a request stays unanswered
is the model's choice: a wait is a step (log entry 10), where rule R85 speaks of no enabled step. The two faults
of log entry 15 are thereby out of reach. -/
def Obligations.TheMachineNeverStops : Prop :=
  ∀ s : State, s.Inv → s.cfg.wf = true → ∃ t, step s = .next t

/-- In one step `fsm` moves only as rule R22 says: by hardware reset to CLOSED, or by a row of its table
for the command that ran. -/
def Obligations.FsmMovesOnlyAsTabled : Prop :=
  ∀ s t : State, s.Inv → step s = .next t →
    t.fsm = s.fsm ∨ (t.fsm = .closed ∧ ∃ rest, s.host = .reset :: rest) ∨
      ∃ i, decode t.cmd = some i ∧ fsmMove i s.fsm t.fsm = true

/-- FATAL is left only by hardware reset; in it no event happens, and `fatal_code` and `devaddr` are kept
(rules R24, R212, R217). -/
def Obligations.FatalIsLeftOnlyByHardwareReset : Prop :=
  ∀ s t : State, s.Inv → s.fsm = .fatal → step s = .next t →
    (t.fsm = .fatal ∧ t.fatalCode = s.fatalCode ∧ t.trace = s.trace ∧ t.devaddr = s.devaddr) ∨
    (∃ rest, s.host = .reset :: rest ∧ t.fsm = .closed)

/-- Only a SETUP enters FATAL, with a failed claim or a failed reset write as the last thing it asked of the
bus, and `fatal_code` names which (rules R24, R33, R216). -/
def Obligations.OnlyAFailedSetupEntersFatal : Prop :=
  ∀ s t : State, step s = .next t → s.fsm ≠ .fatal → t.fsm = .fatal →
    ∃ a, decode t.cmd = some (.setup a) ∧ t.busy = false ∧ t.respStatus = t.fatalCode ∧
      ((t.fatalCode = .busOpenFailed ∧ [Event.claim a false] <:+ t.trace) ∨
       (t.fatalCode = .resetFailed ∧ t.env.device.claimed = false ∧
        [Event.write t.devaddr t.cfg.mode1Addr 0x00 false, Event.release t.devaddr] <:+ t.trace))

/-- Hardware reset (rules R40, R240): every register takes its reset value, `oldmode` and `presc` are left
open, the level outputs follow, and the block then waits for a command. -/
def Obligations.HardwareResetValues : Prop :=
  ∀ (s : State) (rest : List HostInput), s.cfg.wf = true → s.host = .reset :: rest →
    ∃ t, step s = .next t ∧ t.fsm.code = 0b00 ∧ t.busy = false ∧ t.step = 0 ∧
      t.respValid = false ∧ t.respStatus.code = 0x0 ∧ t.respData = 0x00 ∧
      t.fatalCode.code = 0x0 ∧ t.devaddr = 0x00 ∧ t.cmd = 0 ∧
      t.isOpen = false ∧ t.isReady = false ∧ t.isFatal = false ∧ t.cmdReady = true ∧
      (rest = [] → (∀ foreign turns, t.env.turns ≠ ⟨foreign, none⟩ :: turns) → step t = .next t)

/-- Hardware reset gives up the claim without an event and answers nothing (rule R241). It changes no register
of the device when no bus request is outstanding, also when it cuts a SETFREQ short in one of its waits (rule
R243). At the reference device alone it changes none either, unless a write was outstanding, and that write
either took effect whole or not at all (rules R242, R243). -/
def Obligations.HardwareResetKeepsTheDevice : Prop :=
  ∀ (s : State) (rest : List HostInput), s.cfg.wf = true → s.host = .reset :: rest →
    ∃ t, step s = .next t ∧ t.env.device.claimed = false ∧ t.trace = s.trace ∧
      t.responses = s.responses ∧ t.cfg = s.cfg ∧ t.host = rest ∧
      ((s.busy = false ∨
          ∃ rs f, decode s.cmd = some (.setfreq rs f) ∧ (s.step = 2 ∨ s.step = 5)) →
        t.env.device.reg = s.env.device.reg ∧
          t.env.device.violated = s.env.device.violated) ∧
      (s.env.turns = [] → s.env.answering = .referenceDevice → s.cfg.externalMaster = false →
        t.env.device = { s.env.device with claimed := false } ∨
        ∃ r v, s.outstanding = some (.write s.cfg.deviceAddr r v) ∧
          t.env.device = { s.env.device.store s.cfg r v with claimed := false })

/-- Every accepted word gets exactly one response, which then stands in the response registers, unless the
environment leaves the command waiting, and then none yet (rules R32, R85, R117, R200). The word is latched in
`cmd` and taken off the port (rules R26, R101); in FATAL this is log entry 13 (DEDUCED), and that a command may
be left waiting after a step is log entry 10 (the model's choice). -/
def Obligations.OneResponsePerAcceptedWord : Prop :=
  ∀ (s t : State) (w : Word) (rest : List HostInput),
    s.busy = false → s.host = .offer w :: rest → step s = .next t →
    t.cmd = w ∧ t.host = rest ∧
    ((t.busy = false ∧ t.respValid = true ∧
        t.responses = s.responses ++ [⟨t.respStatus, t.respData⟩]) ∨
     (t.busy = true ∧ t.respValid = false ∧ t.responses = s.responses))

/-- A command, and a step, be it one that starts a command or one that goes on with a waiting one, only adds
events, at most seven; every register transaction and every release goes to the claimed address, and every wait
is at least 500 microseconds (rules R8, R25, R27, R222). -/
def Obligations.EventsOfAStep : Prop :=
  ∀ s t : State, (step s = .next t ∨ ∃ i, exec i s = .next t) →
    s.trace <+: t.trace ∧ (addedEvents s t).length ≤ 7 ∧
    (∀ e ∈ addedEvents s t, ∀ a, eventAddress e = some a → a = t.devaddr) ∧
    (∀ us, Event.delay us ∈ addedEvents s t → 500 ≤ us)

/-- `devaddr` is written only by a successful claim, with the claimed address, and by hardware reset
(rules R25, R40). -/
def Obligations.OnlyASuccessfulClaimWritesDevaddr : Prop :=
  ∀ s t : State, step s = .next t → t.devaddr ≠ s.devaddr →
    (∃ rest, s.host = .reset :: rest ∧ t.devaddr = 0x00) ∨
    Event.claim t.devaddr true ∈ addedEvents s t

/-- RESET and SETUP, when they run and when a step goes on with a waiting one, write 0x00 to MODE1 and nothing
else, read nothing and wait for nothing: besides that write their only events are a claim and a release (rule
R150). -/
def Obligations.InitializationWritesOnlyZeroToMode1 : Prop :=
  ∀ (i : Instr) (s t : State), (i = .reset ∨ ∃ a, i = .setup a) →
    (exec i s = .next t ∨ (s.busy = true ∧ decode s.cmd = some i ∧ step s = .next t)) →
    ∀ e ∈ addedEvents s t,
      (∃ a ok, e = .write a s.cfg.mode1Addr 0x00 ok) ∨ (∃ a ok, e = .claim a ok) ∨
        (∃ a, e = .release a)

/-- What `oldmode` and `presc` hold before a command is seen by nothing: not by its trace, its response, its
environment, nor any other register (rule R31). -/
def Obligations.TemporariesCarryNothingOver : Prop :=
  ∀ (i : Instr) (s t : State) (m p : Byte), exec i s = .next t →
    ∃ m' p', exec i { s with oldmode := m, presc := p } =
      .next { t with oldmode := m', presc := p' }

/-- Every instruction but SETFREQ leaves `oldmode` and `presc` alone, and with them `cmd` and what the host
does (rules R26, R31, R130). -/
def Obligations.OnlySetfreqWritesTheTemporaries : Prop :=
  ∀ (i : Instr) (s t : State), (∀ rs f, i ≠ .setfreq rs f) → exec i s = .next t →
    t.oldmode = s.oldmode ∧ t.presc = s.presc ∧ t.cmd = s.cmd ∧ t.host = s.host

/-- The configuration is fixed for the machine (rules R7, R17). -/
def Obligations.NoStepChangesTheConfiguration : Prop :=
  ∀ s t : State, step s = .next t → t.cfg = s.cfg

/-! ### Arithmetic -/

/-- Rule R172, for every well-formed configuration and every `F > 0`: `q` is
`OSC_CLOCK_HZ / (4096 * F/16)` rounded to the nearest integer, a tie going up; the prescale byte is `q - 1`
clamped to `[PRESCALE_MIN, PRESCALE_MAX]`; and with the default oscillator there is no tie. -/
def Obligations.PrescaleByteIsRoundedAndClamped : Prop :=
  ∀ (cfg : Config) (f : BitVec 32), cfg.wf = true → f ≠ 0 →
    ∃ q : Nat, q = (cfg.oscClockHz + 128 * f.toNat) / (256 * f.toNat) ∧
      (q : ℚ) ≤ (cfg.oscClockHz : ℚ) / (4096 * ((f.toNat : ℚ) / 16)) + 1 / 2 ∧
      (cfg.oscClockHz : ℚ) / (4096 * ((f.toNat : ℚ) / 16)) + 1 / 2 < (q : ℚ) + 1 ∧
      ((q : Int) - 1 < cfg.prescaleMin.toNat → prescaleByte cfg f = cfg.prescaleMin) ∧
      ((cfg.prescaleMax.toNat : Int) < (q : Int) - 1 → prescaleByte cfg f = cfg.prescaleMax) ∧
      ((cfg.prescaleMin.toNat : Int) ≤ (q : Int) - 1 → (q : Int) - 1 ≤ cfg.prescaleMax.toNat →
        ((prescaleByte cfg f).toNat : Int) = (q : Int) - 1) ∧
      (cfg.oscClockHz = 25000000 →
        (q : ℚ) ≠ (cfg.oscClockHz : ℚ) / (4096 * ((f.toNat : ℚ) / 16)) + 1 / 2)

/-- Where the clamp does not act the frequency the device produces is within `1/(2*(presc+1))` of the one
asked for (rule R173). -/
def Obligations.FrequencyIsWithinTheTolerance : Prop :=
  ∀ (cfg : Config) (f : BitVec 32), cfg.wf = true → f ≠ 0 →
    (cfg.prescaleMin.toNat : Int) ≤ prescaleUnclamped cfg.oscClockHz f.toNat →
    prescaleUnclamped cfg.oscClockHz f.toNat ≤ (cfg.prescaleMax.toNat : Int) →
    let asked : ℚ := (f.toNat : ℚ) / 16
    let actual : ℚ := (cfg.oscClockHz : ℚ) / (4096 * ((prescaleByte cfg f).toNat + 1))
    |actual - asked| / asked ≤ 1 / (2 * ((prescaleByte cfg f).toNat + 1))

/-- With the default parameters the clamp does not act exactly for `381 <= F <= 27901` (rule R173). -/
def Obligations.DefaultUnclampedRange : Prop :=
  ∀ (cfg : Config) (f : BitVec 32), cfg = {} → f ≠ 0 →
    (((cfg.prescaleMin.toNat : Int) ≤ prescaleUnclamped cfg.oscClockHz f.toNat ∧
      prescaleUnclamped cfg.oscClockHz f.toNat ≤ (cfg.prescaleMax.toNat : Int)) ↔
     381 ≤ f.toNat ∧ f.toNat ≤ 27901)

/-- The address of a channel register does not wrap, lies in the channel block, and names one register of
one channel (rule R69). -/
def Obligations.ChannelAddressesDoNotWrap : Prop :=
  ∀ (cfg : Config) (ch ch' : Byte) (k k' : Nat), cfg.wf = true → ch.toNat ≤ 15 → ch'.toNat ≤ 15 →
    k < 4 → k' < 4 →
    (channelAddr cfg ch k).toNat = cfg.chBaseAddr.toNat + 4 * ch.toNat + k ∧
    cfg.inChannelBlock (channelAddr cfg ch k) = true ∧
    (channelAddr cfg ch k = channelAddr cfg ch' k' → ch = ch' ∧ k = k')

/-- The two bytes of a tick are its low eight bits and its high four, the upper nibble clear (rule R62). -/
def Obligations.TickBytesAreLittleEndian : Prop :=
  ∀ t : Tick, (tickLow t).toNat + 256 * (tickHigh t).toNat = t.toNat ∧ (tickHigh t).toNat < 16

/-- The bytes SETFREQ writes to MODE1 (rule R175): the sleep write has the sleep bit set, the wake write has
it clear, the restart write has it clear and the restart bit set, and every other bit is as read. -/
def Obligations.Mode1BytesKeepTheOtherBits : Prop :=
  ∀ (cfg : Config) (m : Byte), cfg.wf = true →
    mode1Asleep cfg m &&& cfg.sleepMask = cfg.sleepMask ∧
    mode1Asleep cfg m &&& ~~~cfg.sleepMask = m &&& ~~~cfg.sleepMask ∧
    mode1Awake cfg m &&& cfg.sleepMask = 0 ∧
    mode1Awake cfg m &&& ~~~cfg.sleepMask = m &&& ~~~cfg.sleepMask ∧
    mode1Restarted cfg m &&& cfg.sleepMask = 0 ∧
    mode1Restarted cfg m &&& cfg.restartMask = cfg.restartMask ∧
    mode1Restarted cfg m &&& ~~~(cfg.sleepMask ||| cfg.restartMask) =
      m &&& ~~~(cfg.sleepMask ||| cfg.restartMask)

/-- The numeric codes of the FSM states (rule R21) and of the statuses (rule R201), and the host port as a
function of the registers (rules R23, R101, R117). -/
def Obligations.CodeTablesAndHostPort : Prop :=
  [Fsm.closed, .opened, .ready, .fatal].map Fsm.code = [0b00, 0b01, 0b10, 0b11] ∧
  [Status.ok, .busOpenFailed, .busWriteFailed, .busReadFailed, .resetFailed, .invalidFrequency,
    .invalidChannel, .channelSourceUnavailable, .illegalCommand, .noHandle, .notReady,
    .fatal].map Status.code =
    [0x0, 0x1, 0x2, 0x3, 0x4, 0x5, 0x6, 0x7, 0x8, 0x9, 0xA, 0xB] ∧
  (∀ status : Status, status.code.toNat < 0xC) ∧
  ∀ s : State,
    s.hostOutputs.cmdReady = !s.busy ∧ s.hostOutputs.respValid = s.respValid ∧
    s.hostOutputs.respStatus = s.respStatus.code ∧ s.hostOutputs.respData = s.respData ∧
    (s.hostOutputs.isOpen = true ↔ s.fsm = .opened ∨ s.fsm = .ready) ∧
    (s.hostOutputs.isReady = true ↔ s.fsm = .ready) ∧
    (s.hostOutputs.isFatal = true ↔ s.fsm = .fatal) ∧
    s.hostOutputs.fatalCode = s.fatalCode.code

/-- What a failed transaction leaves of the device, in every environment without a second master. The first
four clauses are the model's choice (log entry 17, DEDUCED), wider than rules R176 and R182, which speak of
SETFREQ and of SETCH's channel: a failed claim (which issues no register transaction, rule R11), a failed
transaction at another bus address and a failed read of MODE1 leave the device untouched; no failure changes
the claim or the violated flag; and a failed write to MODE1, PRESCALE or a channel register leaves every other
register as it was. Last, a SETCH that fails at action `k` has done exactly `k` successful writes and the
failing one (rule R182); that the first `k` registers of the channel then hold the new bytes, and every
register but those and the `k`-th is as before, is rule R182 for the channel and, for every environment and
every register outside it, log entry 17 again. -/
def Obligations.FailedTransactionsLeaveTheOtherRegisters : Prop :=
  ∀ s : State, s.cfg.wf = true → s.cfg.externalMaster = false →
    (∀ q e, s.env.respond s.cfg q = (.fail, e) →
      (((∃ a, q = .claim a) ∨ ∃ a, q = .read a s.cfg.mode1Addr) → e.device = s.env.device) ∧
      (∀ a, a ≠ s.cfg.deviceAddr → ((∃ r, q = .read a r) ∨ ∃ r v, q = .write a r v) →
        e.device = s.env.device) ∧
      (e.device.claimed = s.env.device.claimed ∧ e.device.violated = s.env.device.violated) ∧
      (∀ a r v, q = .write a r v →
        (r = s.cfg.mode1Addr ∨ r = s.cfg.prescaleAddr ∨ s.cfg.inChannelBlock r = true) →
        ∀ x, x ≠ r.toNat → memGet e.device.reg x = memGet s.env.device.reg x)) ∧
    ∀ (ch : Byte) (on off : Tick) (t : State),
      s.fsm = .ready → ch.toNat ≤ 15 → s.devaddr = s.cfg.deviceAddr →
      exec (.setch ch on off) s = .next t → t.busy = false → t.respStatus ≠ .ok →
      let b := s.cfg.chBaseAddr.toNat + 4 * ch.toNat
      let write := fun (k : Nat) (ok : Bool) =>
        Event.write s.devaddr (channelAddr s.cfg ch k) (channelByte on off k) ok
      ∃ k < 4, t.respStatus = .busWriteFailed ∧
        t.trace = s.trace ++ (List.range k).map (fun j => write j true) ++ [write k false] ∧
        (∀ j < k, memGet t.env.device.reg (b + j) = some (channelByte on off j)) ∧
        ∀ x, (∀ j ≤ k, x ≠ b + j) → memGet t.env.device.reg x = memGet s.env.device.reg x
end

