-- ==== Sys2Proof/Laws/Memory.lean ====
section
/-! SUPPORT. The laws of the device's memory: what is read after a change, and that every operation
keeps the one written form. -/

namespace Sys2Proof.Machine

theorem memory_wf_nil : Memory.wf [] := by simp [Memory.wf]

/-- The entries of a memory after a store. -/
theorem mem_of_mem_memSet {m : Memory} {a : Nat} {v : Byte} {x : Host.Cell}
    (h : x ∈ memSet m a v) : x = (a, v) ∨ x ∈ m := by
  induction m with
  | nil => exact .inl (List.mem_singleton.mp h)
  | cons y m ih =>
    obtain ⟨b, w⟩ := y
    simp only [memSet] at h
    split at h
    · rcases List.mem_cons.mp h with h | h
      · exact .inl h
      · exact .inr h
    · split at h
      · rcases List.mem_cons.mp h with h | h
        · exact .inl h
        · exact .inr (List.mem_cons_of_mem _ h)
      · rcases List.mem_cons.mp h with h | h
        · exact .inr (h ▸ List.mem_cons_self)
        · exact (ih h).imp_right (List.mem_cons_of_mem _)

/-- The entries of a memory after one was removed. -/
theorem mem_of_mem_memErase {m : Memory} {a : Nat} {x : Host.Cell}
    (h : x ∈ memErase m a) : x ∈ m := by
  induction m with
  | nil => exact h
  | cons y m ih =>
    obtain ⟨b, w⟩ := y
    simp only [memErase] at h
    split at h
    · exact List.mem_cons_of_mem _ h
    · rcases List.mem_cons.mp h with h | h
      · exact h ▸ List.mem_cons_self
      · exact List.mem_cons_of_mem _ (ih h)

theorem memSet_rising {m : Memory} (a : Nat) (v : Byte)
    (h : m.Pairwise (fun x y => x.1 < y.1)) :
    (memSet m a v).Pairwise (fun x y => x.1 < y.1) := by
  induction m with
  | nil => simp [memSet]
  | cons y m ih =>
    obtain ⟨b, w⟩ := y
    obtain ⟨hb, hm⟩ := List.pairwise_cons.mp h
    simp only [memSet]
    split
    · refine List.pairwise_cons.mpr ⟨fun x hx => ?_, h⟩
      rcases List.mem_cons.mp hx with rfl | hx
      · assumption
      · exact Nat.lt_trans ‹a < b› (hb x hx)
    · split
      · exact List.pairwise_cons.mpr ⟨fun x hx => by subst_vars; exact hb x hx, hm⟩
      · refine List.pairwise_cons.mpr ⟨fun x hx => ?_, ih hm⟩
        rcases mem_of_mem_memSet hx with rfl | hx
        · show b < a; omega
        · exact hb x hx

theorem memErase_rising {m : Memory} (a : Nat) (h : m.Pairwise (fun x y => x.1 < y.1)) :
    (memErase m a).Pairwise (fun x y => x.1 < y.1) := by
  induction m with
  | nil => simp [memErase]
  | cons y m ih =>
    obtain ⟨b, w⟩ := y
    obtain ⟨hb, hm⟩ := List.pairwise_cons.mp h
    simp only [memErase]
    split
    · exact hm
    · exact List.pairwise_cons.mpr ⟨fun x hx => hb x (mem_of_mem_memErase hx), ih hm⟩

/-- A store keeps the form. -/
theorem memSet_wf {m : Memory} (h : m.wf) {a : Nat} (ha : a < registerCount) (v : Byte) :
    (memSet m a v).wf :=
  ⟨memSet_rising a v h.1, fun x hx => by
    rcases mem_of_mem_memSet hx with rfl | hx
    · exact ha
    · exact h.2 x hx⟩

/-- Removing a value keeps the form. -/
theorem memErase_wf {m : Memory} (h : m.wf) (a : Nat) : (memErase m a).wf :=
  ⟨memErase_rising a h.1, fun x hx => h.2 x (mem_of_mem_memErase hx)⟩

/-- A change by the environment keeps the form. -/
theorem memChange_wf {m : Memory} (h : m.wf) (c : CellChange) : (memChange m c).wf := by
  unfold memChange
  split
  · exact memSet_wf h c.reg.isLt _
  · exact memErase_wf h _

/-- Several changes keep the form. -/
theorem memChanges_wf {m : Memory} (h : m.wf) (cs : List CellChange) : (memChanges m cs).wf := by
  induction cs generalizing m with
  | nil => exact h
  | cons c cs ih => exact ih (memChange_wf h c)

/-- Below the smallest address nothing is listed. -/
theorem memGet_below {m : Memory} {a : Nat} (h : ∀ x ∈ m, a < x.1) : memGet m a = none := by
  induction m with
  | nil => rfl
  | cons y m ih =>
    have h0 : a < y.1 := h y List.mem_cons_self
    simp only [memGet]
    rw [if_neg (by omega)]
    exact ih fun x hx => h x (List.mem_cons_of_mem _ hx)

/-- A store is read back. -/
@[simp] theorem memGet_memSet_same (m : Memory) (a : Nat) (v : Byte) :
    memGet (memSet m a v) a = some v := by
  induction m with
  | nil => simp [memSet, memGet]
  | cons y m ih =>
    obtain ⟨b, w⟩ := y
    simp only [memSet]
    split
    · simp [memGet]
    · split
      · simp [memGet]
      · rw [memGet, if_neg (fun h => ‹¬a = b› h.symm)]
        exact ih

/-- A store leaves every other register alone. -/
theorem memGet_memSet_other (m : Memory) {a b : Nat} (v : Byte) (h : b ≠ a) :
    memGet (memSet m a v) b = memGet m b := by
  induction m with
  | nil => simp [memSet, memGet, Ne.symm h]
  | cons y m ih =>
    obtain ⟨c, w⟩ := y
    simp only [memSet]
    split
    · simp [memGet, Ne.symm h]
    · split
      · subst_vars; simp [memGet, Ne.symm h]
      · simp only [memGet]; rw [ih]

/-- What a store does to every address. -/
theorem memGet_memSet (m : Memory) (a b : Nat) (v : Byte) :
    memGet (memSet m a v) b = if b = a then some v else memGet m b := by
  split
  · subst_vars; exact memGet_memSet_same ..
  · exact memGet_memSet_other m v ‹_›

/-- Removing a value is read back in a memory of the one form. -/
theorem memGet_memErase_same {m : Memory} (h : m.Pairwise (fun x y => x.1 < y.1)) (a : Nat) :
    memGet (memErase m a) a = none := by
  induction m with
  | nil => rfl
  | cons y m ih =>
    obtain ⟨b, w⟩ := y
    obtain ⟨hb, hm⟩ := List.pairwise_cons.mp h
    simp only [memErase]
    split
    · subst_vars; exact memGet_below hb
    · rw [memGet, if_neg (fun h => ‹¬a = b› h.symm)]
      exact ih hm

/-- Removing a value leaves every other register alone. -/
theorem memGet_memErase_other (m : Memory) {a b : Nat} (h : b ≠ a) :
    memGet (memErase m a) b = memGet m b := by
  induction m with
  | nil => rfl
  | cons y m ih =>
    obtain ⟨c, w⟩ := y
    simp only [memErase]
    split
    · subst_vars; simp [memGet, Ne.symm h]
    · simp only [memGet]; rw [ih]

end Sys2Proof.Machine
end

