-- ==== Sys2Proof/Laws/Environment.lean ====
section
/-! SUPPORT. What the environment can do when it answers a request: which parts of the device it may
change, and that the device's memory keeps its form. -/

namespace Sys2Proof.Machine

/-! ### The device -/

@[simp] theorem Device.store_claimed (cfg : Config) (r : RegAddr) (v : Byte) (d : Device) :
    (d.store cfg r v).claimed = d.claimed := by
  unfold Device.store; split <;> rfl

theorem Device.store_wf (cfg : Config) (r : RegAddr) (v : Byte) {d : Device} (h : d.reg.wf) :
    (d.store cfg r v).reg.wf := by
  unfold Device.store
  split
  · exact h
  · exact memSet_wf h r.isLt v

@[simp] theorem Device.foreignOne_claimed (cfg : Config) (d : Device) (t : ForeignTxn) :
    (d.foreignOne cfg t).claimed = d.claimed := by
  cases t <;> simp [Device.foreignOne]

theorem Device.foreignOne_wf (cfg : Config) {d : Device} (h : d.reg.wf) (t : ForeignTxn) :
    (d.foreignOne cfg t).reg.wf := by
  cases t with
  | write r v => exact Device.store_wf cfg r v h
  | read r => exact h

@[simp] theorem Device.foreignAct_claimed (cfg : Config) (d : Device) (t : ForeignAct) :
    (d.foreignAct cfg t).claimed = d.claimed := by
  cases t <;> simp [Device.foreignAct]

theorem Device.foreignAct_wf (cfg : Config) {d : Device} (h : d.reg.wf) (t : ForeignAct) :
    (d.foreignAct cfg t).reg.wf := by
  cases t with
  | device t => exact Device.foreignOne_wf cfg h t
  | free changes => exact memChanges_wf h changes

@[simp] theorem Device.foreign_claimed (cfg : Config) (ts : List ForeignAct) (d : Device) :
    (d.foreign cfg ts).claimed = d.claimed := by
  unfold Device.foreign
  split
  · induction ts generalizing d with
    | nil => rfl
    | cons t ts ih => rw [List.foldl_cons, ih, Device.foreignAct_claimed]
  · rfl

theorem Device.foreign_wf (cfg : Config) (ts : List ForeignAct) {d : Device} (h : d.reg.wf) :
    (d.foreign cfg ts).reg.wf := by
  unfold Device.foreign
  split
  · induction ts generalizing d with
    | nil => exact h
    | cons t ts ih => exact ih (Device.foreignAct_wf cfg h t)
  · exact h

@[simp] theorem Device.foreign_alone {cfg : Config} (h : cfg.externalMaster = false)
    (ts : List ForeignAct) (d : Device) : d.foreign cfg ts = d := by
  simp [Device.foreign, h]

theorem Device.answer_wf (cfg : Config) (draw : Byte) (q : Request) {d : Device} (h : d.reg.wf) :
    (d.answer cfg draw q).2.reg.wf := by
  cases q with
  | claim a => simp only [Device.answer]; split <;> exact h
  | write a r v =>
    simp only [Device.answer]
    split
    · exact h
    · exact Device.store_wf cfg r v h
  | read a r => simp only [Device.answer]; split <;> exact h
  | delay t => exact h

theorem Device.freeStore_wf (cfg : Config) (r : RegAddr) (v : Byte) (cs : List CellChange)
    {d : Device} (h : d.reg.wf) : (d.freeStore cfg r v cs).reg.wf := by
  unfold Device.freeStore
  split
  · exact memChanges_wf h _
  · split
    · exact memChanges_wf h _
    · exact memSet_wf h r.isLt v

theorem Device.freeOk_wf (cfg : Config) (q : Request) (cs : List CellChange) {d : Device}
    (h : d.reg.wf) : (d.freeOk cfg q cs).reg.wf := by
  cases q with
  | claim _ | delay _ => exact h
  | write a r v =>
    simp only [Device.freeOk]
    split
    · exact Device.freeStore_wf cfg r v cs h
    · exact h
  | read a r =>
    simp only [Device.freeOk]
    split
    · exact memChanges_wf h _
    · exact h

theorem Device.freeFail_wf (cfg : Config) (q : Request) (cs : List CellChange) {d : Device}
    (h : d.reg.wf) : (d.freeFail cfg q cs).reg.wf := by
  cases q with
  | claim _ | delay _ => exact h
  | read a r =>
    simp only [Device.freeFail]
    split
    · exact memChanges_wf h _
    · exact h
  | write a r v =>
    simp only [Device.freeFail]
    split
    · exact h
    · split <;> exact memChanges_wf h _

/-! ### Which parts an answer leaves alone -/

@[simp] theorem Device.freeStore_claimed (cfg : Config) (r : RegAddr) (v : Byte)
    (cs : List CellChange) (d : Device) : (d.freeStore cfg r v cs).claimed = d.claimed := by
  unfold Device.freeStore; split <;> (try split) <;> rfl

@[simp] theorem Device.freeFail_claimed (cfg : Config) (q : Request) (cs : List CellChange)
    (d : Device) : (d.freeFail cfg q cs).claimed = d.claimed := by
  cases q <;> simp only [Device.freeFail] <;> split <;> (try split) <;> rfl

theorem Device.freeOk_claimed (cfg : Config) {q : Request} (hq : ∀ a, q ≠ .claim a)
    (cs : List CellChange) (d : Device) : (d.freeOk cfg q cs).claimed = d.claimed := by
  cases q with
  | claim a => exact absurd rfl (hq a)
  | delay _ => rfl
  | write a r v => simp only [Device.freeOk]; split <;> simp
  | read a r => simp only [Device.freeOk]; split <;> rfl

theorem Device.answer_claimed (cfg : Config) (draw : Byte) {q : Request} (hq : ∀ a, q ≠ .claim a)
    (d : Device) : (d.answer cfg draw q).2.claimed = d.claimed := by
  cases q with
  | claim a => exact absurd rfl (hq a)
  | delay _ => rfl
  | write a r v => simp only [Device.answer]; split <;> simp
  | read a r => simp only [Device.answer]; split <;> rfl

/-- A change of other registers is not seen at `x`. -/
theorem memGet_changesOf {m : Memory} {r : RegAddr} {x : Nat} (hx : x ≠ r.toNat)
    (cs : List CellChange) : memGet (memChanges m (changesOf r cs)) x = memGet m x := by
  induction cs generalizing m with
  | nil => rfl
  | cons c cs ih =>
    simp only [changesOf, List.filter_cons] at ih ⊢
    split
    · next hc =>
      have hc : c.reg = r := by simpa using hc
      rw [memChanges, List.foldl_cons, ← memChanges, ih]
      unfold memChange
      split
      · rw [hc, memGet_memSet_other m _ hx]
      · rw [hc, memGet_memErase_other m hx]
    · exact ih

@[simp] theorem Device.freeFail_violated (cfg : Config) (q : Request) (cs : List CellChange)
    (d : Device) : (d.freeFail cfg q cs).violated = d.violated := by
  cases q <;> simp only [Device.freeFail] <;> split <;> (try split) <;> rfl

/-- A failed read of MODE1 leaves the device untouched (rule R176). -/
@[simp] theorem Device.freeFail_mode1 (cfg : Config) (a : BusAddr) (cs : List CellChange)
    (d : Device) : d.freeFail cfg (.read a cfg.mode1Addr) cs = d := by
  simp [Device.freeFail]

/-- A failed write to a described register changes no other register (rules R176, R182, U5). -/
theorem Device.freeFail_other {cfg : Config} {r : RegAddr} (hr : describedReg cfg r = true) {x : Nat}
    (hx : x ≠ r.toNat) (a : BusAddr) (v : Byte) (cs : List CellChange) (d : Device) :
    memGet (d.freeFail cfg (.write a r v) cs).reg x = memGet d.reg x := by
  simp only [Device.freeFail, hr, if_true]
  split
  · rfl
  · exact memGet_changesOf hx cs

@[simp] theorem Device.release_claimed (d : Device) : d.release.claimed = false := rfl
@[simp] theorem Device.release_reg (d : Device) : d.release.reg = d.reg := rfl
@[simp] theorem Device.release_violated (d : Device) : d.release.violated = d.violated := rfl

/-! ### The turn -/

@[simp] theorem Env.turnTaken_device (e : Env) : e.turnTaken.device = e.device := by
  unfold Env.turnTaken; split <;> rfl

@[simp] theorem Env.turnTaken_answering (e : Env) : e.turnTaken.answering = e.answering := by
  unfold Env.turnTaken; split <;> rfl

@[simp] theorem Env.turnTaken_turns (e : Env) : e.turnTaken.turns = e.turns.tail := by
  unfold Env.turnTaken; split <;> simp_all

/-- The device's memory keeps its form in every turn. -/
theorem Device.takeTurn_wf (cfg : Config) (draw : Byte) (q : Request) (t : EnvTurn) {d : Device}
    (h : d.reg.wf) : (d.takeTurn cfg draw q t).2.reg.wf := by
  have hf := Device.foreign_wf cfg t.foreign h
  unfold Device.takeTurn
  split
  · exact hf
  · exact Device.answer_wf _ _ q hf
  · exact Device.freeOk_wf cfg q _ hf
  · exact Device.freeFail_wf cfg q _ hf

/-- A request that is no claim leaves the claim as it is in every turn. -/
theorem Device.takeTurn_claimed (cfg : Config) (draw : Byte) {q : Request}
    (hq : ∀ a, q ≠ .claim a) (t : EnvTurn) (d : Device) :
    (d.takeTurn cfg draw q t).2.claimed = d.claimed := by
  unfold Device.takeTurn
  split <;> simp [Device.answer_claimed, Device.freeOk_claimed, hq]

/-! ### The answer -/

theorem Env.passTime_device {cfg : Config} {e e' : Env} (h : e.passTime cfg = some e') :
    (∃ ts, e'.device = e.device.foreign cfg ts) ∧ e'.answering = e.answering ∧
      e'.drawn = e.drawn := by
  unfold Env.passTime at h
  split at h
  · cases h; exact ⟨⟨_, rfl⟩, rfl, rfl⟩
  · cases h

/-- The device's memory keeps its form at every bus request. -/
theorem Env.respondBus_wf (cfg : Config) (q : Request) {e : Env} (h : e.device.reg.wf) :
    (e.respondBus cfg q).2.device.reg.wf :=
  Device.takeTurn_wf cfg _ q _ h

/-- The device's memory keeps its form when a request is cut short. -/
theorem Env.abandonBus_wf (cfg : Config) (q : Request) {e : Env} (h : e.device.reg.wf) :
    (e.abandonBus cfg q).device.reg.wf :=
  Device.takeTurn_wf cfg _ q _ h

/-- The device's memory keeps its form at every request. -/
theorem Env.respond_wf (cfg : Config) (q : Request) {e : Env} (h : e.device.reg.wf) :
    (e.respond cfg q).2.device.reg.wf := by
  cases q with
  | delay t =>
    simp only [Env.respond, Env.respondDelay]
    split
    · next e' he =>
      obtain ⟨⟨ts, hts⟩, -, -⟩ := Env.passTime_device he
      simpa [hts] using Device.foreign_wf cfg ts h
    · exact h
  | claim _ | write _ _ _ | read _ _ => exact Env.respondBus_wf cfg _ h

/-- A request that is no claim leaves the claim as it is. -/
theorem Env.respond_claimed (cfg : Config) {q : Request} (hq : ∀ a, q ≠ .claim a) (e : Env) :
    (e.respond cfg q).2.device.claimed = e.device.claimed := by
  cases q with
  | claim a => exact absurd rfl (hq a)
  | delay t =>
    simp only [Env.respond, Env.respondDelay]
    split
    · next e' he =>
      obtain ⟨⟨ts, hts⟩, -, -⟩ := Env.passTime_device he
      simp [hts]
    · rfl
  | write _ _ _ | read _ _ => exact Device.takeTurn_claimed cfg _ (by simp) _ _

/-- A claim that is answered `ok` is held; otherwise the claim is as before. -/
theorem Env.respond_claim (cfg : Config) (a : BusAddr) (e : Env) :
    (∃ d, (e.respond cfg (.claim a)).1 = .ok d ∧
      (e.respond cfg (.claim a)).2.device.claimed = true) ∨
    ((∀ d, (e.respond cfg (.claim a)).1 ≠ .ok d) ∧
      (e.respond cfg (.claim a)).2.device.claimed = e.device.claimed) := by
  simp only [Env.respond, Env.respondBus, Device.takeTurn]
  split
  · right; simp
  · simp only [Device.answer, Device.foreign_claimed]
    split
    · right; simp_all
    · left; exact ⟨0, rfl, rfl⟩
  · left; exact ⟨_, rfl, rfl⟩
  · right; simp

end Sys2Proof.Machine
end

