-- ==== Sys2Proof/Laws/State.lean ====
section
/-! SUPPORT. What each update of the state does to each of its fields. -/

namespace Sys2Proof.Machine

variable (s : State)

/-! ### State.respond -/

@[simp] theorem State.respond_cfg (status : Status) (data : Byte) :
    (s.respond status data).cfg = s.cfg := rfl
@[simp] theorem State.respond_fsm (status : Status) (data : Byte) :
    (s.respond status data).fsm = s.fsm := rfl
@[simp] theorem State.respond_devaddr (status : Status) (data : Byte) :
    (s.respond status data).devaddr = s.devaddr := rfl
@[simp] theorem State.respond_cmd (status : Status) (data : Byte) :
    (s.respond status data).cmd = s.cmd := rfl
@[simp] theorem State.respond_busy (status : Status) (data : Byte) :
    (s.respond status data).busy = false := rfl
@[simp] theorem State.respond_step (status : Status) (data : Byte) :
    (s.respond status data).step = 0 := rfl
@[simp] theorem State.respond_oldmode (status : Status) (data : Byte) :
    (s.respond status data).oldmode = s.oldmode := rfl
@[simp] theorem State.respond_presc (status : Status) (data : Byte) :
    (s.respond status data).presc = s.presc := rfl
@[simp] theorem State.respond_respValid (status : Status) (data : Byte) :
    (s.respond status data).respValid = true := rfl
@[simp] theorem State.respond_respStatus (status : Status) (data : Byte) :
    (s.respond status data).respStatus = status := rfl
@[simp] theorem State.respond_respData (status : Status) (data : Byte) :
    (s.respond status data).respData = data := rfl
@[simp] theorem State.respond_fatalCode (status : Status) (data : Byte) :
    (s.respond status data).fatalCode = s.fatalCode := rfl
@[simp] theorem State.respond_host (status : Status) (data : Byte) :
    (s.respond status data).host = s.host := rfl
@[simp] theorem State.respond_env (status : Status) (data : Byte) :
    (s.respond status data).env = s.env := rfl
@[simp] theorem State.respond_trace (status : Status) (data : Byte) :
    (s.respond status data).trace = s.trace := rfl
@[simp] theorem State.respond_responses (status : Status) (data : Byte) :
    (s.respond status data).responses = s.responses ++ [⟨status, data⟩] := rfl

/-! ### State.raise -/

@[simp] theorem State.raise_cfg (status : Status) : (s.raise status).cfg = s.cfg := rfl
@[simp] theorem State.raise_fsm (status : Status) : (s.raise status).fsm = s.fsm := rfl
@[simp] theorem State.raise_devaddr (status : Status) : (s.raise status).devaddr = s.devaddr := rfl
@[simp] theorem State.raise_cmd (status : Status) : (s.raise status).cmd = s.cmd := rfl
@[simp] theorem State.raise_busy (status : Status) : (s.raise status).busy = false := rfl
@[simp] theorem State.raise_step (status : Status) : (s.raise status).step = 0 := rfl
@[simp] theorem State.raise_oldmode (status : Status) : (s.raise status).oldmode = s.oldmode := rfl
@[simp] theorem State.raise_presc (status : Status) : (s.raise status).presc = s.presc := rfl
@[simp] theorem State.raise_respValid (status : Status) : (s.raise status).respValid = true := rfl
@[simp] theorem State.raise_respStatus (status : Status) :
    (s.raise status).respStatus = status := rfl
@[simp] theorem State.raise_respData (status : Status) : (s.raise status).respData = 0x00 := rfl
@[simp] theorem State.raise_fatalCode (status : Status) :
    (s.raise status).fatalCode = s.fatalCode := rfl
@[simp] theorem State.raise_host (status : Status) : (s.raise status).host = s.host := rfl
@[simp] theorem State.raise_env (status : Status) : (s.raise status).env = s.env := rfl
@[simp] theorem State.raise_trace (status : Status) : (s.raise status).trace = s.trace := rfl
@[simp] theorem State.raise_responses (status : Status) :
    (s.raise status).responses = s.responses ++ [⟨status, 0x00⟩] := rfl

/-! ### State.complete -/

@[simp] theorem State.complete_cfg (data : Byte) : (s.complete data).cfg = s.cfg := rfl
@[simp] theorem State.complete_fsm (data : Byte) : (s.complete data).fsm = s.fsm := rfl
@[simp] theorem State.complete_devaddr (data : Byte) : (s.complete data).devaddr = s.devaddr := rfl
@[simp] theorem State.complete_cmd (data : Byte) : (s.complete data).cmd = s.cmd := rfl
@[simp] theorem State.complete_busy (data : Byte) : (s.complete data).busy = false := rfl
@[simp] theorem State.complete_step (data : Byte) : (s.complete data).step = 0 := rfl
@[simp] theorem State.complete_oldmode (data : Byte) : (s.complete data).oldmode = s.oldmode := rfl
@[simp] theorem State.complete_presc (data : Byte) : (s.complete data).presc = s.presc := rfl
@[simp] theorem State.complete_respValid (data : Byte) : (s.complete data).respValid = true := rfl
@[simp] theorem State.complete_respStatus (data : Byte) : (s.complete data).respStatus = .ok := rfl
@[simp] theorem State.complete_respData (data : Byte) : (s.complete data).respData = data := rfl
@[simp] theorem State.complete_fatalCode (data : Byte) :
    (s.complete data).fatalCode = s.fatalCode := rfl
@[simp] theorem State.complete_host (data : Byte) : (s.complete data).host = s.host := rfl
@[simp] theorem State.complete_env (data : Byte) : (s.complete data).env = s.env := rfl
@[simp] theorem State.complete_trace (data : Byte) : (s.complete data).trace = s.trace := rfl
@[simp] theorem State.complete_responses (data : Byte) :
    (s.complete data).responses = s.responses ++ [⟨.ok, data⟩] := rfl

/-! ### State.begin -/

@[simp] theorem State.begin_cfg : (s.begin).cfg = s.cfg := rfl
@[simp] theorem State.begin_fsm : (s.begin).fsm = s.fsm := rfl
@[simp] theorem State.begin_devaddr : (s.begin).devaddr = s.devaddr := rfl
@[simp] theorem State.begin_cmd : (s.begin).cmd = s.cmd := rfl
@[simp] theorem State.begin_busy : (s.begin).busy = true := rfl
@[simp] theorem State.begin_step : (s.begin).step = 0 := rfl
@[simp] theorem State.begin_oldmode : (s.begin).oldmode = s.oldmode := rfl
@[simp] theorem State.begin_presc : (s.begin).presc = s.presc := rfl
@[simp] theorem State.begin_respValid : (s.begin).respValid = s.respValid := rfl
@[simp] theorem State.begin_respStatus : (s.begin).respStatus = s.respStatus := rfl
@[simp] theorem State.begin_respData : (s.begin).respData = s.respData := rfl
@[simp] theorem State.begin_fatalCode : (s.begin).fatalCode = s.fatalCode := rfl
@[simp] theorem State.begin_host : (s.begin).host = s.host := rfl
@[simp] theorem State.begin_env : (s.begin).env = s.env := rfl
@[simp] theorem State.begin_trace : (s.begin).trace = s.trace := rfl
@[simp] theorem State.begin_responses : (s.begin).responses = s.responses := rfl

/-! ### State.advance -/

@[simp] theorem State.advance_cfg : (s.advance).cfg = s.cfg := rfl
@[simp] theorem State.advance_fsm : (s.advance).fsm = s.fsm := rfl
@[simp] theorem State.advance_devaddr : (s.advance).devaddr = s.devaddr := rfl
@[simp] theorem State.advance_cmd : (s.advance).cmd = s.cmd := rfl
@[simp] theorem State.advance_busy : (s.advance).busy = s.busy := rfl
@[simp] theorem State.advance_step : (s.advance).step = s.step + 1 := rfl
@[simp] theorem State.advance_oldmode : (s.advance).oldmode = s.oldmode := rfl
@[simp] theorem State.advance_presc : (s.advance).presc = s.presc := rfl
@[simp] theorem State.advance_respValid : (s.advance).respValid = s.respValid := rfl
@[simp] theorem State.advance_respStatus : (s.advance).respStatus = s.respStatus := rfl
@[simp] theorem State.advance_respData : (s.advance).respData = s.respData := rfl
@[simp] theorem State.advance_fatalCode : (s.advance).fatalCode = s.fatalCode := rfl
@[simp] theorem State.advance_host : (s.advance).host = s.host := rfl
@[simp] theorem State.advance_env : (s.advance).env = s.env := rfl
@[simp] theorem State.advance_trace : (s.advance).trace = s.trace := rfl
@[simp] theorem State.advance_responses : (s.advance).responses = s.responses := rfl

/-! ### State.takeHandle -/

@[simp] theorem State.takeHandle_cfg (a : BusAddr) : (s.takeHandle a).cfg = s.cfg := rfl
@[simp] theorem State.takeHandle_fsm (a : BusAddr) : (s.takeHandle a).fsm = .opened := rfl
@[simp] theorem State.takeHandle_devaddr (a : BusAddr) : (s.takeHandle a).devaddr = a := rfl
@[simp] theorem State.takeHandle_cmd (a : BusAddr) : (s.takeHandle a).cmd = s.cmd := rfl
@[simp] theorem State.takeHandle_busy (a : BusAddr) : (s.takeHandle a).busy = s.busy := rfl
@[simp] theorem State.takeHandle_step (a : BusAddr) : (s.takeHandle a).step = s.step := rfl
@[simp] theorem State.takeHandle_oldmode (a : BusAddr) : (s.takeHandle a).oldmode = s.oldmode := rfl
@[simp] theorem State.takeHandle_presc (a : BusAddr) : (s.takeHandle a).presc = s.presc := rfl
@[simp] theorem State.takeHandle_respValid (a : BusAddr) :
    (s.takeHandle a).respValid = s.respValid := rfl
@[simp] theorem State.takeHandle_respStatus (a : BusAddr) :
    (s.takeHandle a).respStatus = s.respStatus := rfl
@[simp] theorem State.takeHandle_respData (a : BusAddr) :
    (s.takeHandle a).respData = s.respData := rfl
@[simp] theorem State.takeHandle_fatalCode (a : BusAddr) :
    (s.takeHandle a).fatalCode = s.fatalCode := rfl
@[simp] theorem State.takeHandle_host (a : BusAddr) : (s.takeHandle a).host = s.host := rfl
@[simp] theorem State.takeHandle_env (a : BusAddr) : (s.takeHandle a).env = s.env := rfl
@[simp] theorem State.takeHandle_trace (a : BusAddr) : (s.takeHandle a).trace = s.trace := rfl
@[simp] theorem State.takeHandle_responses (a : BusAddr) :
    (s.takeHandle a).responses = s.responses := rfl

/-! ### State.releaseHandle -/

@[simp] theorem State.releaseHandle_cfg : (s.releaseHandle).cfg = s.cfg := rfl
@[simp] theorem State.releaseHandle_fsm : (s.releaseHandle).fsm = s.fsm := rfl
@[simp] theorem State.releaseHandle_devaddr : (s.releaseHandle).devaddr = s.devaddr := rfl
@[simp] theorem State.releaseHandle_cmd : (s.releaseHandle).cmd = s.cmd := rfl
@[simp] theorem State.releaseHandle_busy : (s.releaseHandle).busy = s.busy := rfl
@[simp] theorem State.releaseHandle_step : (s.releaseHandle).step = s.step := rfl
@[simp] theorem State.releaseHandle_oldmode : (s.releaseHandle).oldmode = s.oldmode := rfl
@[simp] theorem State.releaseHandle_presc : (s.releaseHandle).presc = s.presc := rfl
@[simp] theorem State.releaseHandle_respValid : (s.releaseHandle).respValid = s.respValid := rfl
@[simp] theorem State.releaseHandle_respStatus : (s.releaseHandle).respStatus = s.respStatus := rfl
@[simp] theorem State.releaseHandle_respData : (s.releaseHandle).respData = s.respData := rfl
@[simp] theorem State.releaseHandle_fatalCode : (s.releaseHandle).fatalCode = s.fatalCode := rfl
@[simp] theorem State.releaseHandle_host : (s.releaseHandle).host = s.host := rfl
@[simp] theorem State.releaseHandle_env :
    (s.releaseHandle).env = { s.env with device := s.env.device.release } := rfl
@[simp] theorem State.releaseHandle_trace :
    (s.releaseHandle).trace = s.trace ++ [.release s.devaddr] := rfl
@[simp] theorem State.releaseHandle_responses : (s.releaseHandle).responses = s.responses := rfl

/-! ### State.enterFatal -/

@[simp] theorem State.enterFatal_cfg (status : Status) : (s.enterFatal status).cfg = s.cfg := rfl
@[simp] theorem State.enterFatal_fsm (status : Status) : (s.enterFatal status).fsm = .fatal := rfl
@[simp] theorem State.enterFatal_devaddr (status : Status) :
    (s.enterFatal status).devaddr = s.devaddr := rfl
@[simp] theorem State.enterFatal_cmd (status : Status) : (s.enterFatal status).cmd = s.cmd := rfl
@[simp] theorem State.enterFatal_busy (status : Status) : (s.enterFatal status).busy = false := rfl
@[simp] theorem State.enterFatal_step (status : Status) : (s.enterFatal status).step = 0 := rfl
@[simp] theorem State.enterFatal_oldmode (status : Status) :
    (s.enterFatal status).oldmode = s.oldmode := rfl
@[simp] theorem State.enterFatal_presc (status : Status) :
    (s.enterFatal status).presc = s.presc := rfl
@[simp] theorem State.enterFatal_respValid (status : Status) :
    (s.enterFatal status).respValid = true := rfl
@[simp] theorem State.enterFatal_respStatus (status : Status) :
    (s.enterFatal status).respStatus = status := rfl
@[simp] theorem State.enterFatal_respData (status : Status) :
    (s.enterFatal status).respData = 0x00 := rfl
@[simp] theorem State.enterFatal_fatalCode (status : Status) :
    (s.enterFatal status).fatalCode = status := rfl
@[simp] theorem State.enterFatal_host (status : Status) : (s.enterFatal status).host = s.host := rfl
@[simp] theorem State.enterFatal_env (status : Status) : (s.enterFatal status).env = s.env := rfl
@[simp] theorem State.enterFatal_trace (status : Status) :
    (s.enterFatal status).trace = s.trace := rfl
@[simp] theorem State.enterFatal_responses (status : Status) :
    (s.enterFatal status).responses = s.responses ++ [⟨status, 0x00⟩] := rfl

/-! ### State.accept -/

@[simp] theorem State.accept_cfg (w : Word) (rest : List HostInput) :
    (s.accept w rest).cfg = s.cfg := rfl
@[simp] theorem State.accept_fsm (w : Word) (rest : List HostInput) :
    (s.accept w rest).fsm = s.fsm := rfl
@[simp] theorem State.accept_devaddr (w : Word) (rest : List HostInput) :
    (s.accept w rest).devaddr = s.devaddr := rfl
@[simp] theorem State.accept_cmd (w : Word) (rest : List HostInput) :
    (s.accept w rest).cmd = w := rfl
@[simp] theorem State.accept_busy (w : Word) (rest : List HostInput) :
    (s.accept w rest).busy = s.busy := rfl
@[simp] theorem State.accept_step (w : Word) (rest : List HostInput) :
    (s.accept w rest).step = s.step := rfl
@[simp] theorem State.accept_oldmode (w : Word) (rest : List HostInput) :
    (s.accept w rest).oldmode = s.oldmode := rfl
@[simp] theorem State.accept_presc (w : Word) (rest : List HostInput) :
    (s.accept w rest).presc = s.presc := rfl
@[simp] theorem State.accept_respValid (w : Word) (rest : List HostInput) :
    (s.accept w rest).respValid = false := rfl
@[simp] theorem State.accept_respStatus (w : Word) (rest : List HostInput) :
    (s.accept w rest).respStatus = s.respStatus := rfl
@[simp] theorem State.accept_respData (w : Word) (rest : List HostInput) :
    (s.accept w rest).respData = s.respData := rfl
@[simp] theorem State.accept_fatalCode (w : Word) (rest : List HostInput) :
    (s.accept w rest).fatalCode = s.fatalCode := rfl
@[simp] theorem State.accept_host (w : Word) (rest : List HostInput) :
    (s.accept w rest).host = rest := rfl
@[simp] theorem State.accept_env (w : Word) (rest : List HostInput) :
    (s.accept w rest).env = s.env := rfl
@[simp] theorem State.accept_trace (w : Word) (rest : List HostInput) :
    (s.accept w rest).trace = s.trace := rfl
@[simp] theorem State.accept_responses (w : Word) (rest : List HostInput) :
    (s.accept w rest).responses = s.responses := rfl

end Sys2Proof.Machine
end

