-- ==== Sys2Proof/Laws/Ops.lean ====
section
/-! SUPPORT. The shared operations, each said once: what one action does for each answer, when a command
answers a next state, and what the checks of rule R213 say of `fsm`. -/

namespace Sys2Proof.Machine

/-! ### One action -/

theorem State.perform_ok {s : State} {q : Request} {f : Byte → State → State} {g : State → State}
    {d : Byte} {e : Env} (h : s.env.respond s.cfg q = (.ok d, e)) :
    s.perform q f g = f d { s with env := e, trace := s.trace ++ q.event (.ok d) } := by
  simp [State.perform, h]

theorem State.perform_fail {s : State} {q : Request} {f : Byte → State → State}
    {g : State → State} {e : Env} (h : s.env.respond s.cfg q = (.fail, e)) :
    s.perform q f g = g { s with env := e, trace := s.trace ++ q.event .fail } := by
  simp [State.perform, h]

@[simp] theorem Request.event_pending (q : Request) : q.event .pending = [] := by
  cases q <;> rfl

theorem State.perform_pending {s : State} {q : Request} {f : Byte → State → State}
    {g : State → State} {e : Env} (h : s.env.respond s.cfg q = (.pending, e)) :
    s.perform q f g = { s with env := e } := by
  simp [State.perform, h]

/-- Everything one action can do. -/
theorem State.perform_cases (s : State) (q : Request) (f : Byte → State → State)
    (g : State → State) :
    (∃ d e, s.env.respond s.cfg q = (.ok d, e) ∧
      s.perform q f g = f d { s with env := e, trace := s.trace ++ q.event (.ok d) }) ∨
    (∃ e, s.env.respond s.cfg q = (.fail, e) ∧
      s.perform q f g = g { s with env := e, trace := s.trace ++ q.event .fail }) ∨
    (∃ e, s.env.respond s.cfg q = (.pending, e) ∧ s.perform q f g = { s with env := e }) := by
  rcases h : s.env.respond s.cfg q with ⟨a, e⟩
  cases a with
  | ok d => exact .inl ⟨d, e, rfl, State.perform_ok h⟩
  | fail => exact .inr (.inl ⟨e, rfl, State.perform_fail h⟩)
  | pending => exact .inr (.inr ⟨e, rfl, State.perform_pending h⟩)

/-- A property that every arm of an action keeps holds after it. -/
theorem State.perform_keeps {P : State → Prop} {s : State} {q : Request}
    {f : Byte → State → State} {g : State → State}
    (hf : ∀ d e, s.env.respond s.cfg q = (.ok d, e) →
      P (f d { s with env := e, trace := s.trace ++ q.event (.ok d) }))
    (hg : ∀ e, s.env.respond s.cfg q = (.fail, e) →
      P (g { s with env := e, trace := s.trace ++ q.event .fail }))
    (hp : ∀ e, s.env.respond s.cfg q = (.pending, e) → P { s with env := e }) :
    P (s.perform q f g) := by
  rcases s.perform_cases q f g with ⟨d, e, h, h'⟩ | ⟨e, h, h'⟩ | ⟨e, h, h'⟩ <;> rw [h']
  · exact hf d e h
  · exact hg e h
  · exact hp e h

/-! ### A command -/

/-- When a command answers a next state, and which. -/
theorem State.command_next {s t : State} {r : Option Status} {f : State → State} :
    s.command r f = .next t ↔
      s.cfg.wf = true ∧ ((∃ st, r = some st ∧ t = s.raise st) ∨ (r = none ∧ t = f s)) := by
  unfold State.command
  split
  · next hw =>
    cases r with
    | none => simp [hw, eq_comm (a := t)]
    | some st => simp [hw, eq_comm (a := t)]
  · next hw => simp [hw]

theorem State.command_refused {s : State} {r : Option Status} {f : State → State}
    (h : s.cfg.wf = true) {st : Status} (hr : r = some st) :
    s.command r f = .next (s.raise st) := by
  simp [State.command, h, hr]

theorem State.command_run {s : State} {r : Option Status} {f : State → State}
    (h : s.cfg.wf = true) (hr : r = none) : s.command r f = .next (f s) := by
  simp [State.command, h, hr]

/-! ### The checks -/

theorem State.gateClosed_none {s : State} : s.gateClosed = none ↔ s.fsm = .closed := by
  unfold State.gateClosed; split <;> simp_all

theorem State.gateHandle_none {s : State} :
    s.gateHandle = none ↔ s.fsm = .opened ∨ s.fsm = .ready := by
  unfold State.gateHandle; split <;> simp_all

theorem State.gateReady_none {s : State} : s.gateReady = none ↔ s.fsm = .ready := by
  unfold State.gateReady; split <;> simp_all

@[simp] theorem frequencyCheck_none {f : BitVec 32} : frequencyCheck f = none ↔ f ≠ 0 := by
  simp [frequencyCheck]

@[simp] theorem channelCheck_none {ch : Byte} : channelCheck ch = none ↔ ch.toNat ≤ 15 := by
  simp [channelCheck]

end Sys2Proof.Machine
end

