-- ==== Sys2Proof/Laws/Commands.lean ====
section
/-! SUPPORT. Each command as its checks and its first action, and the cases of a step: what the proofs
about exec and step cite instead of unfolding them. -/

namespace Sys2Proof.Machine

/-! ### The commands -/

theorem exec_openBus (a : BusAddr) (s : State) :
    exec (.openBus a) s = s.command s.gateClosed (fun s => openAction0 a s.begin) := rfl

theorem exec_wrreg (r : RegAddr) (v : Byte) (s : State) :
    exec (.wrreg r v) s = s.command s.gateReady (fun s => wrregAction0 r v s.begin) := rfl

theorem exec_rdreg (r : RegAddr) (s : State) :
    exec (.rdreg r) s = s.command s.gateReady (fun s => rdregAction0 r s.begin) := rfl

theorem exec_reset (s : State) :
    exec .reset s = s.command s.gateHandle (fun s => resetAction0 s.begin) := rfl

theorem exec_setup (a : BusAddr) (s : State) :
    exec (.setup a) s = s.command s.gateClosed (fun s => setupAction0 a s.begin) := rfl

theorem exec_setfreq (rs : Bool) (f : BitVec 32) (s : State) :
    exec (.setfreq rs f) s = s.command (s.gateReady.or (frequencyCheck f))
      (fun s => setfreqAction0 rs { s with presc := prescaleByte s.cfg f }.begin) := rfl

theorem exec_setch (ch : Byte) (on off : Tick) (s : State) :
    exec (.setch ch on off) s = s.command (s.gateReady.or (channelCheck ch))
      (fun s => setchAction0 ch on off s.begin) := rfl

/-- A command under a well-formed configuration always answers a next state. -/
theorem State.command_answers {s : State} (h : s.cfg.wf = true) (r : Option Status)
    (f : State → State) : ∃ t, s.command r f = .next t := by
  simp [State.command, h]

theorem resumeAt_openBus (a : BusAddr) (k : Nat) (s : State) :
    resumeAt (.openBus a) k s = if k = 0 then some (openAction0 a s) else none := rfl

theorem resumeAt_wrreg (r : RegAddr) (v : Byte) (k : Nat) (s : State) :
    resumeAt (.wrreg r v) k s = if k = 0 then some (wrregAction0 r v s) else none := rfl

theorem resumeAt_rdreg (r : RegAddr) (k : Nat) (s : State) :
    resumeAt (.rdreg r) k s = if k = 0 then some (rdregAction0 r s) else none := rfl

theorem resumeAt_reset (k : Nat) (s : State) :
    resumeAt .reset k s = if k = 0 then some (resetAction0 s) else none := rfl

/-! ### The step -/

/-- Everything that can happen in one step. -/
theorem step_cases {s t : State} (h : step s = .next t) :
    s.cfg.wf = true ∧
    ((∃ rest, s.host = .reset :: rest ∧ t = { s with host := rest }.hardwareReset) ∨
     (s.busy = true ∧ (∀ rest, s.host ≠ .reset :: rest) ∧ resume s = .next t) ∨
     (s.busy = false ∧ ∃ w rest, s.host = .offer w :: rest ∧
       ((∃ i, decode w = some i ∧ exec i (s.accept w rest) = .next t) ∨
        (decode w = none ∧ t = (s.accept w rest).refuseIllegal))) ∨
     (s.busy = false ∧ s.host = [] ∧ t = s.idle)) := by
  unfold step at h
  split at h
  · next hw =>
    refine ⟨hw, ?_⟩
    unfold hostStep at h
    split at h
    · next rest hh => cases h; exact .inl ⟨rest, hh, rfl⟩
    · next w rest hh =>
      split at h
      · next hb => exact .inr (.inl ⟨hb, by simp [hh], h⟩)
      · next hb =>
        refine .inr (.inr (.inl ⟨by simpa using hb, w, rest, hh, ?_⟩))
        unfold runWord at h
        split at h
        · next i hd => exact .inl ⟨i, hd, h⟩
        · next hd => cases h; exact .inr ⟨hd, rfl⟩
    · next hh =>
      split at h
      · next hb => exact .inr (.inl ⟨hb, by simp [hh], h⟩)
      · next hb => cases h; exact .inr (.inr (.inr ⟨by simpa using hb, hh, rfl⟩))
  · cases h

/-- Where a waiting command goes on. -/
theorem resume_next {s t : State} (h : resume s = .next t) :
    ∃ i, decode s.cmd = some i ∧ resumeAt i s.step.toNat s = some t := by
  unfold resume at h
  split at h
  · cases h
  · next i hd =>
    split at h
    · next t' ht => cases h; exact ⟨i, hd, ht⟩
    · cases h

end Sys2Proof.Machine
end

