-- ==== Sys2Proof/Laws/Decode.lean ====
section
/-! SUPPORT. The decoder as a search for a row: what it means that a word decodes, that a row is
selected only by words of its opcode, and that the opcodes of the rows differ (rule R109). -/

namespace Sys2Proof

/-- A decoded word selects the row of its command and has the fields of that row. -/
theorem decode_some {w : Word} {i : Instr} (h : decode w = some i) :
    ∃ o : Row, o.selects w = true ∧ o.fields w = i := by
  simp only [decode, Option.map_eq_some_iff] at h
  obtain ⟨o, ho, rfl⟩ := h
  exact ⟨o, by simpa using List.find?_some ho, rfl⟩

/-- A word is illegal exactly when it selects no row. -/
theorem decode_none {w : Word} : decode w = none ↔ ∀ o : Row, o.selects w = false := by
  simp only [decode, opcodeMap, Option.map_eq_none_iff, List.find?_eq_none, List.forall_mem_cons,
    Bool.not_eq_true]
  constructor
  · intro h o
    cases o <;> simp [h]
  · intro h
    simp [h]

/-- Every mask covers the opcode field. -/
theorem Row.opcodeField_mask (o : Row) (w : Word) : opcodeField (w &&& o.mask) = opcodeField w := by
  apply BitVec.eq_of_getLsbD_eq
  intro k hk
  simp only [opcodeField, BitVec.getLsbD_extractLsb', BitVec.getLsbD_and]
  cases o <;> simp [Row.mask] <;> interval_cases k <;> simp

/-- A selected word has the opcode of the row. -/
theorem Row.opcodeField_selects {o : Row} {w : Word} (h : o.selects w = true) :
    opcodeField w = opcodeField o.pattern := by
  simp only [Row.selects, beq_iff_eq] at h
  rw [← h, o.opcodeField_mask]

/-- No two rows have the same opcode. -/
theorem Row.opcode_injective {o o' : Row} (h : opcodeField o.pattern = opcodeField o'.pattern) :
    o = o' := by
  revert h
  cases o <;> cases o' <;> decide

/-- A word that selects one row selects no other, so the search finds it. -/
theorem Row.find_of_selects {o : Row} {w : Word} (h : o.selects w = true) :
    opcodeMap.find? (fun r => r.selects w) = some o := by
  have only : (fun r : Row => r.selects w) = fun r => decide (r = o) := by
    funext r
    rw [Bool.eq_iff_iff, decide_eq_true_iff]
    constructor
    · exact fun hr =>
        Row.opcode_injective ((opcodeField_selects hr).symm.trans (opcodeField_selects h))
    · rintro rfl
      exact h
  rw [only]
  cases o <;> rfl

/-- The fields a word has under the row it selects are what it decodes to. -/
theorem decode_of_selects {o : Row} {w : Word} (h : o.selects w = true) :
    decode w = some (o.fields w) := by
  rw [decode, Row.find_of_selects h, Option.map_some]

end Sys2Proof
end

