-- ==== Sys2Proof/Laws/Keeps.lean ====
section
/-! SUPPORT. One induction over the actions of the commands: a property that every update a command is
made of keeps is kept by every command, run from its start or continued. -/

namespace Sys2Proof.Machine

/-- A property every update a command is made of keeps. -/
structure KeptByUpdates (P : State → Prop) : Prop where
  answered : ∀ s q a e, P s → P { s with env := e, trace := s.trace ++ Request.event q a }
  respond : ∀ s status data, P s → P (s.respond status data)
  sequencer : ∀ s b k, P s → P { s with busy := b, step := k }
  temporaries : ∀ s m p, P s → P { s with oldmode := m, presc := p }
  fsm : ∀ s f, P s → P { s with fsm := f }
  handle : ∀ s a, P s → P (s.takeHandle a)
  release : ∀ s, P s → P s.releaseHandle
  fatalCode : ∀ s c, P s → P { s with fatalCode := c }

namespace KeptByUpdates

variable {P : State → Prop} (K : KeptByUpdates P)
include K

theorem perform {s : State} {q : Request} {f : Byte → State → State} {g : State → State}
    (h : P s) (hf : ∀ d s', P s' → P (f d s')) (hg : ∀ s', P s' → P (g s')) :
    P (s.perform q f g) := by
  refine State.perform_keeps (fun d e _ => hf d _ (K.answered s q (.ok d) e h))
    (fun e _ => hg _ (K.answered s q .fail e h)) (fun e _ => ?_)
  simpa using K.answered s q .pending e h

theorem raise {s : State} (h : P s) (st : Status) : P (s.raise st) := K.respond s st 0 h
theorem complete {s : State} (h : P s) (d : Byte) : P (s.complete d) := K.respond s .ok d h
theorem advance {s : State} (h : P s) : P s.advance := K.sequencer s s.busy (s.step + 1) h
theorem begin {s : State} (h : P s) : P s.begin := K.sequencer s true 0 h

theorem enterFatal {s : State} (h : P s) (st : Status) : P (s.enterFatal st) :=
  K.raise (K.fatalCode _ st (K.fsm s .fatal h)) st

theorem openAction0 {s : State} (h : P s) (a : BusAddr) : P (openAction0 a s) :=
  K.perform h (fun _ s' h => K.complete (K.handle s' a h) _) (fun _ h => K.raise h _)

theorem wrregAction0 {s : State} (h : P s) (r : RegAddr) (v : Byte) : P (wrregAction0 r v s) :=
  K.perform h (fun _ _ h => K.complete h _) (fun _ h => K.raise h _)

theorem rdregAction0 {s : State} (h : P s) (r : RegAddr) : P (rdregAction0 r s) :=
  K.perform h (fun _ _ h => K.complete h _) (fun _ h => K.raise h _)

theorem resetAction0 {s : State} (h : P s) : P (resetAction0 s) :=
  K.perform h (fun _ _ h => K.complete (K.fsm _ _ h) _) (fun _ h => K.raise (K.fsm _ _ h) _)

theorem setupAction1 {s : State} (h : P s) : P (setupAction1 s) :=
  K.perform h (fun _ _ h => K.complete (K.fsm _ _ h) _)
    (fun _ h => K.enterFatal (K.release _ h) _)

theorem setupAction0 {s : State} (h : P s) (a : BusAddr) : P (setupAction0 a s) :=
  K.perform h (fun _ _ h => K.setupAction1 (K.advance (K.handle _ a h)))
    (fun _ h => K.enterFatal h _)

theorem setfreqAction6 {s : State} (h : P s) : P (setfreqAction6 s) :=
  K.perform h (fun _ _ h => K.complete h _) (fun _ h => K.raise h _)

theorem setfreqAction5 {s : State} (h : P s) (rs : Bool) : P (setfreqAction5 rs s) := by
  refine K.perform h (fun _ _ h => ?_) (fun _ h => h)
  cases rs
  · exact K.complete h _
  · exact K.setfreqAction6 (K.advance h)

theorem setfreqAction4 {s : State} (h : P s) (rs : Bool) : P (setfreqAction4 rs s) :=
  K.perform h (fun _ _ h => K.setfreqAction5 (K.advance h) rs) (fun _ h => K.raise h _)

theorem setfreqAction3 {s : State} (h : P s) (rs : Bool) : P (setfreqAction3 rs s) :=
  K.perform h (fun _ _ h => K.setfreqAction4 (K.advance h) rs) (fun _ h => K.raise h _)

theorem setfreqAction2 {s : State} (h : P s) (rs : Bool) : P (setfreqAction2 rs s) :=
  K.perform h (fun _ _ h => K.setfreqAction3 (K.advance h) rs) (fun _ h => h)

theorem setfreqAction1 {s : State} (h : P s) (rs : Bool) : P (setfreqAction1 rs s) :=
  K.perform h (fun _ _ h => K.setfreqAction2 (K.advance h) rs) (fun _ h => K.raise h _)

theorem setfreqAction0 {s : State} (h : P s) (rs : Bool) : P (setfreqAction0 rs s) :=
  K.perform h (fun m s' h => K.setfreqAction1 (K.advance (K.temporaries s' m s'.presc h)) rs)
    (fun _ h => K.raise h _)

theorem setchAction3 {s : State} (h : P s) (ch : Byte) (on off : Tick) :
    P (setchAction3 ch on off s) :=
  K.perform h (fun _ _ h => K.complete h _) (fun _ h => K.raise h _)

theorem setchAction2 {s : State} (h : P s) (ch : Byte) (on off : Tick) :
    P (setchAction2 ch on off s) :=
  K.perform h (fun _ _ h => K.setchAction3 (K.advance h) ch on off) (fun _ h => K.raise h _)

theorem setchAction1 {s : State} (h : P s) (ch : Byte) (on off : Tick) :
    P (setchAction1 ch on off s) :=
  K.perform h (fun _ _ h => K.setchAction2 (K.advance h) ch on off) (fun _ h => K.raise h _)

theorem setchAction0 {s : State} (h : P s) (ch : Byte) (on off : Tick) :
    P (setchAction0 ch on off s) :=
  K.perform h (fun _ _ h => K.setchAction1 (K.advance h) ch on off) (fun _ h => K.raise h _)

theorem command {s t : State} (h : P s) {r : Option Status} {f : State → State}
    (he : s.command r f = .next t) (hf : P s → P (f s)) : P t := by
  obtain ⟨-, ⟨st, -, rfl⟩ | ⟨-, rfl⟩⟩ := State.command_next.mp he
  · exact K.raise h st
  · exact hf h

/-- Every command keeps the property. -/
theorem exec {i : Instr} {s t : State} (h : P s) (he : exec i s = .next t) : P t := by
  cases i with
  | openBus a => rw [exec_openBus] at he; exact K.command h he fun h => K.openAction0 (K.begin h) a
  | wrreg r v =>
    rw [exec_wrreg] at he; exact K.command h he fun h => K.wrregAction0 (K.begin h) r v
  | rdreg r => rw [exec_rdreg] at he; exact K.command h he fun h => K.rdregAction0 (K.begin h) r
  | reset => rw [exec_reset] at he; exact K.command h he fun h => K.resetAction0 (K.begin h)
  | setup a => rw [exec_setup] at he; exact K.command h he fun h => K.setupAction0 (K.begin h) a
  | setfreq rs f =>
    rw [exec_setfreq] at he
    exact K.command h he fun h =>
      K.setfreqAction0 (K.begin (K.temporaries s s.oldmode (prescaleByte s.cfg f) h)) rs
  | setch ch on off =>
    rw [exec_setch] at he
    exact K.command h he fun h => K.setchAction0 (K.begin h) ch on off

omit K in
theorem onlyAction {k : Nat} {s' t : State} (he : (if k = 0 then some s' else none) = some t)
    (h : P s') : P t := by
  split at he
  · cases he; exact h
  · cases he

theorem resumeSetup {a : BusAddr} {k : Nat} {s t : State} (h : P s)
    (he : Machine.resumeSetup a k s = some t) : P t := by
  unfold Machine.resumeSetup at he
  split at he <;> cases he
  · exact K.setupAction0 h a
  · exact K.setupAction1 h

theorem resumeSetfreq {rs : Bool} {k : Nat} {s t : State} (h : P s)
    (he : Machine.resumeSetfreq rs k s = some t) : P t := by
  unfold Machine.resumeSetfreq at he
  split at he
  case h_7 =>
    split at he <;> cases he
    exact K.setfreqAction6 h
  all_goals cases he
  · exact K.setfreqAction0 h rs
  · exact K.setfreqAction1 h rs
  · exact K.setfreqAction2 h rs
  · exact K.setfreqAction3 h rs
  · exact K.setfreqAction4 h rs
  · exact K.setfreqAction5 h rs

theorem resumeSetch {ch : Byte} {on off : Tick} {k : Nat} {s t : State} (h : P s)
    (he : Machine.resumeSetch ch on off k s = some t) : P t := by
  unfold Machine.resumeSetch at he
  split at he <;> cases he
  · exact K.setchAction0 h ch on off
  · exact K.setchAction1 h ch on off
  · exact K.setchAction2 h ch on off
  · exact K.setchAction3 h ch on off

/-- Every continued command keeps the property. -/
theorem resumeAt {i : Instr} {k : Nat} {s t : State} (h : P s) (he : resumeAt i k s = some t) :
    P t := by
  cases i with
  | openBus a =>
    rw [resumeAt_openBus] at he; exact onlyAction he (K.openAction0 h a)
  | wrreg r v =>
    rw [resumeAt_wrreg] at he; exact onlyAction he (K.wrregAction0 h r v)
  | rdreg r =>
    rw [resumeAt_rdreg] at he; exact onlyAction he (K.rdregAction0 h r)
  | reset =>
    rw [resumeAt_reset] at he; exact onlyAction he (K.resetAction0 h)
  | setup a => exact K.resumeSetup h he
  | setfreq rs f => exact K.resumeSetfreq h he
  | setch ch on off => exact K.resumeSetch h he

theorem resume {s t : State} (h : P s) (he : resume s = .next t) : P t := by
  obtain ⟨i, -, hi⟩ := resume_next he
  exact K.resumeAt h hi

end KeptByUpdates

/-- What no command touches: the configuration, the command word and what the host does. -/
theorem untouched_kept (c : Config) (w : Word) (h : List HostInput) :
    KeptByUpdates (fun s => s.cfg = c ∧ s.cmd = w ∧ s.host = h) where
  answered _ _ _ _ h := h
  respond _ _ _ h := h
  sequencer _ _ _ h := h
  temporaries _ _ _ h := h
  fsm _ _ h := h
  handle _ _ h := h
  release _ h := h
  fatalCode _ _ h := h

theorem exec_untouched {i : Instr} {s t : State} (h : exec i s = .next t) :
    t.cfg = s.cfg ∧ t.cmd = s.cmd ∧ t.host = s.host :=
  (untouched_kept s.cfg s.cmd s.host).exec ⟨rfl, rfl, rfl⟩ h

theorem resume_untouched {s t : State} (h : resume s = .next t) :
    t.cfg = s.cfg ∧ t.cmd = s.cmd ∧ t.host = s.host :=
  (untouched_kept s.cfg s.cmd s.host).resume ⟨rfl, rfl, rfl⟩ h

end Sys2Proof.Machine
end

