-- ==== Sys2Proof/Laws/PerInstr.lean ====
section
/-! SUPPORT. One statement per command, as syntax: the word a command is encoded to selects the row of
that command (rules R109, R113). -/

namespace Sys2Proof.Laws.OwnRow

/-- The encoding of a command selects the command's own row: its opcode is there, and every
must-be-zero bit of its format is 0. -/
def Statement (i : Instr) : Prop := i.row.selects (encode i) = true

/-- It is enough to look at the bits one by one. -/
theorem of_bits {i : Instr}
    (h : ∀ k < 64, ((encode i).getLsbD k && i.row.mask.getLsbD k) = i.row.pattern.getLsbD k) :
    Statement i := by
  unfold Statement Row.selects
  rw [beq_iff_eq]
  apply BitVec.eq_of_getLsbD_eq
  intro k hk
  rw [BitVec.getLsbD_and]
  exact h k hk

theorem openBus (a : BusAddr) : Statement (.openBus a) := by
  apply of_bits
  intro k hk
  simp only [encode, Instr.row, Row.pattern, Row.mask, Instr.operandBits, BitVec.getLsbD_or,
    BitVec.getLsbD_setWidth]
  interval_cases k <;> simp

theorem wrreg (r : RegAddr) (v : Byte) : Statement (.wrreg r v) := by
  apply of_bits
  intro k hk
  simp only [encode, Instr.row, Row.pattern, Row.mask, Instr.operandBits, BitVec.getLsbD_or,
    BitVec.getLsbD_setWidth, BitVec.getLsbD_shiftLeft]
  interval_cases k <;> simp

theorem rdreg (r : RegAddr) : Statement (.rdreg r) := by
  apply of_bits
  intro k hk
  simp only [encode, Instr.row, Row.pattern, Row.mask, Instr.operandBits, BitVec.getLsbD_or,
    BitVec.getLsbD_setWidth, BitVec.getLsbD_shiftLeft]
  interval_cases k <;> simp

theorem reset : Statement .reset := by
  unfold Statement
  decide

theorem setup (a : BusAddr) : Statement (.setup a) := by
  apply of_bits
  intro k hk
  simp only [encode, Instr.row, Row.pattern, Row.mask, Instr.operandBits, BitVec.getLsbD_or,
    BitVec.getLsbD_setWidth]
  interval_cases k <;> simp

theorem setfreq (rs : Bool) (f : BitVec 32) : Statement (.setfreq rs f) := by
  apply of_bits
  intro k hk
  simp only [encode, Instr.row, Row.pattern, Row.mask, Instr.operandBits, BitVec.getLsbD_or,
    BitVec.getLsbD_setWidth, BitVec.getLsbD_shiftLeft]
  interval_cases k <;> simp

theorem setch (ch : Byte) (on off : Tick) : Statement (.setch ch on off) := by
  apply of_bits
  intro k hk
  simp only [encode, Instr.row, Row.pattern, Row.mask, Instr.operandBits, BitVec.getLsbD_or,
    BitVec.getLsbD_setWidth, BitVec.getLsbD_shiftLeft]
  interval_cases k <;> simp

end Sys2Proof.Laws.OwnRow
end

