-- ==== Sys2Proof/Tests/Slice0.lean ====
section
/-! SUPPORT. Tests. Expected results come from the spec: spec/95_test_vectors.md (the vector is named at
each test) or the rule named there. Last come the witnesses: for every statement with hypotheses, a
concrete state and operands that meet all of them together. -/

open Sys2Proof Sys2Proof.Machine Sys2Proof.Statements

namespace Sys2Proof.Tests

/-! ### Helpers -/

/-- A turn in which the reference device answers (rule R81). -/
def device : EnvTurn := ⟨[], some .device⟩

/-- A turn in which the transaction fails and stores nothing (the vectors' "event n fails"). -/
def fails : EnvTurn := ⟨[], some (.fail [])⟩

/-- A turn in which an unspecified register reads as the byte the vector names. -/
def draws (d : Byte) : EnvTurn := ⟨[], some (.ok d [])⟩

/-- A turn without an answer (rule R85). -/
def waits : EnvTurn := ⟨[], none⟩

/-- The vectors' start states: `devaddr` is 0x40 and the device claimed while a handle exists. -/
def machine (f : Fsm) (m : Memory) (turns : List EnvTurn) : State :=
  { State.reset with
    fsm := f
    devaddr := if f = .opened ∨ f = .ready then 0x40 else 0x00
    fatalCode := if f = .fatal then .resetFailed else .ok
    env := {
      device := ⟨f == .opened || f == .ready, m, false⟩
      turns := turns
      answering := .referenceDevice
      drawn := 0 } }

/-- A state as a command leaves it while it waits at an action. -/
def running (f : Fsm) (w : Word) (k : BitVec 3) (turns : List EnvTurn) : State :=
  { machine f [(0x00, 0x00)] turns with cmd := w, busy := true, step := k }

def nextOf : Result → Option State
  | .next t => some t
  | .fault _ | .refused _ => none

/-- One step with a word on offer: the trace, the response and the FSM state. -/
def offered (w : Word) (s : State) : Option (List Event × Status × Byte × Fsm) :=
  (nextOf (step (s.offerNow w))).map fun t => (t.trace, t.respStatus, t.respData, t.fsm)

/-- One step with a word on offer: the device afterwards. -/
def deviceAfter (w : Word) (s : State) : Option (Memory × Bool × Bool) :=
  (nextOf (step (s.offerNow w))).map fun t =>
    (t.env.device.reg, t.env.device.claimed, t.env.device.violated)

/-! ### Well-formedness: one ill-formed term for each check -/

theorem test_default_config_is_wf : Config.wf {} = true := by decide

theorem test_config_osc : Config.wf { oscClockHz := 0 } = false := by decide
theorem test_config_settle : Config.wf { tSettleUs := 499 } = false := by decide
theorem test_config_prescale_range : Config.wf { prescaleMin := 4, prescaleMax := 3 } = false := by
  decide
theorem test_config_sleep_mask : Config.wf { sleepMask := 0x30 } = false := by decide
theorem test_config_restart_mask : Config.wf { restartMask := 0x00 } = false := by decide
theorem test_config_masks_differ : Config.wf { sleepMask := 0x80 } = false := by decide
theorem test_config_block_wraps : Config.channelBlockOk { chBaseAddr := 0xC1 } = false := by decide
theorem test_config_block_fits : Config.channelBlockOk { chBaseAddr := 0xC0 } = true := by decide
theorem test_config_mode_addresses : Config.wf { mode2Addr := 0x00 } = false := by decide
theorem test_config_mode1_prescale : Config.wf { mode1Addr := 0xFE } = false := by decide
theorem test_config_mode2_prescale : Config.wf { mode2Addr := 0xFE } = false := by decide
theorem test_config_mode1_in_block : Config.wf { mode1Addr := 0x06 } = false := by decide
theorem test_config_mode2_in_block : Config.wf { mode2Addr := 0x45 } = false := by decide
theorem test_config_prescale_in_block : Config.wf { prescaleAddr := 0x20 } = false := by decide

theorem test_line_open : (AsmLine.openBus 128).wf = false := by decide
theorem test_line_setup : (AsmLine.setup 128).wf = false := by decide
theorem test_line_wrreg_register : (AsmLine.wrreg (.number 256) 0).wf = false := by decide
theorem test_line_wrreg_value : (AsmLine.wrreg (.number 0) 256).wf = false := by decide
theorem test_line_rdreg : (AsmLine.rdreg (.name (.chOnL 16))).wf = false := by decide
theorem test_line_setch_channel : (AsmLine.setch 256 0 0).wf = false := by decide
theorem test_line_setch_on : (AsmLine.setch 0 4096 0).wf = false := by decide
theorem test_line_setch_off : (AsmLine.setch 0 0 4096).wf = false := by decide
/-- 50.01 Hz is no multiple of 1/16 Hz. -/
theorem test_line_setfreq_fraction : (AsmLine.setfreq 5001 2 false).wf = false := by decide
/-- 268435456 Hz is `F` = 2^32. -/
theorem test_line_setfreq_range : (AsmLine.setfreq 268435456 0 false).wf = false := by decide

theorem test_memory_order : ¬ Memory.wf [(2, 0), (1, 0)] := by decide
theorem test_memory_repeat : ¬ Memory.wf [(1, 0), (1, 0)] := by decide
theorem test_memory_range : ¬ Memory.wf [(256, 0)] := by decide

/-! ### Decoding: the words are written out from rules R103 to R109 (vectors V1 to V9n) -/

theorem test_decode_open :
    decode 0x0100000000000040 = some (.openBus 0x40) ∧
    decode 0x010000000000007F = some (.openBus 0x7F) ∧
    decode 0x0100000000000080 = none := by decide

theorem test_decode_wrreg :
    decode 0x020000000000FE79 = some (.wrreg 0xFE 0x79) ∧
    decode 0x020000000001FE79 = none := by decide

theorem test_decode_rdreg :
    decode 0x030000000000FE00 = some (.rdreg 0xFE) ∧
    decode 0x030000000000FE01 = none := by decide

theorem test_decode_reset :
    decode 0x0400000000000000 = some .reset ∧
    decode 0x0400000000000001 = none := by decide

theorem test_decode_setup : decode 0x0500000000000040 = some (.setup 0x40) := by decide

theorem test_decode_setfreq :
    decode 0x0600000100000320 = some (.setfreq true 800) ∧
    decode 0x06000000FFFFFFFF = some (.setfreq false 0xFFFFFFFF) ∧
    decode 0x0600000200000320 = none := by decide

theorem test_decode_setch :
    decode 0x0700000F01230ABC = some (.setch 15 0x123 0xABC) ∧
    decode 0x070000FF00000000 = some (.setch 255 0 0) ∧
    decode 0x0700000310000800 = none ∧
    decode 0x0700000300001800 = none ∧
    decode 0x0700010300000800 = none := by decide

/-- Illegal words, by name (rule R111; V9l, V9m, V9n, V9a). -/
theorem test_illegal_words :
    decodeNamed 0 = .error (.reservedOpcode 0x00) ∧
    decodeNamed 0x0800000000000000 = .error (.reservedOpcode 0x08) ∧
    decodeNamed 0xFFFFFFFFFFFFFFFF = .error (.reservedOpcode 0xFF) ∧
    decodeNamed 0x0400000000000001 = .error (.reservedBitSet 0x04) := ⟨rfl, rfl, rfl, rfl⟩

/-- The encodings of the words of V5, V9c and V72. -/
theorem test_encode :
    encode (.wrreg 0xFE 0x79) = 0x020000000000FE79 ∧
    encode (.setfreq true 800) = 0x0600000100000320 ∧
    encode (.setch 15 0x123 0xABC) = 0x0700000F01230ABC := by decide

/-- Lines of the programs of part 3 of the vectors, and the names of rule R115. -/
theorem test_assemble :
    assemble {} (.setfreq 50 0 false) = some (.setfreq false 800) ∧
    assemble {} (.setfreq 455 1 true) = some (.setfreq true 728) ∧
    assemble {} (.rdreg (.name (.chOffH 3))) = some (.rdreg 0x15) ∧
    assemble {} (.wrreg (.name .prescale) 0x79) = some (.wrreg 0xFE 0x79) := by decide

/-! ### The commands, one step each, on the vectors of sections 2.2 to 2.6 -/

/-- V14. -/
theorem test_open : offered 0x0100000000000040 (machine .closed [] [device]) =
    some ([.claim 0x40 true], .ok, 0x00, .opened) := by decide

/-- V15: not FATAL. -/
theorem test_open_fails : offered 0x0100000000000040 (machine .closed [] [fails]) =
    some ([.claim 0x40 false], .busOpenFailed, 0x00, .closed) := by decide

/-- V23. -/
theorem test_wrreg : deviceAfter 0x020000000000062A (machine .ready [(0x00, 0x00)] [device]) =
    some ([(0x00, 0x00), (0x06, 0x2A)], true, false) := by decide

/-- V29b: the prescale register outside sleep mode. -/
theorem test_wrreg_prescale_awake :
    deviceAfter 0x020000000000FE79 (machine .ready [(0x00, 0x00)] [device]) =
      some ([(0x00, 0x00)], true, true) := by decide

/-- V27. -/
theorem test_rdreg : offered 0x0300000000000600 (machine .ready [(0x06, 0x2A)] [device]) =
    some ([.read 0x40 0x06 (some 0x2A)], .ok, 0x2A, .ready) := by decide

/-- V29. -/
theorem test_rdreg_fails : offered 0x0300000000000600 (machine .ready [(0x06, 0x2A)] [fails]) =
    some ([.read 0x40 0x06 none], .busReadFailed, 0x00, .ready) := by decide

/-- V18. -/
theorem test_reset : offered 0x0400000000000000 (machine .opened [] [device]) =
    some ([.write 0x40 0x00 0x00 true], .ok, 0x00, .ready) := by decide

/-- V20: the block demands a new RESET. -/
theorem test_reset_fails : offered 0x0400000000000000 (machine .ready [] [fails]) =
    some ([.write 0x40 0x00 0x00 false], .resetFailed, 0x00, .opened) := by decide

/-- V13, the wrong bus address, by the reference device's own answers. -/
theorem test_setup_wrong_address :
    offered 0x0500000000000041 (machine .closed [] [device, device]) =
      some ([.claim 0x41 true, .write 0x41 0x00 0x00 false, .release 0x41],
        .resetFailed, 0x00, .fatal) := by decide

/-- V10 with V12's device: the claim is held, MODE1 is 0x00. -/
theorem test_setup : deviceAfter 0x0500000000000040 (machine .closed [] [device, device]) =
    some ([(0x00, 0x00)], true, false) := by decide

/-- S3 and V61 together: `m0` = 0xA1, with the restart write. -/
theorem test_setfreq :
    offered 0x0600000100000320
        (machine .ready [(0x00, 0xA1)] [device, device, device, device, device]) =
      some ([.read 0x40 0x00 (some 0xA1), .write 0x40 0x00 0xB1 true, .delay 500,
          .write 0x40 0xFE 0x79 true, .write 0x40 0x00 0xA1 true, .delay 500,
          .write 0x40 0x00 0xA1 true],
        .ok, 0x00, .ready) := by decide

/-- V67: the device is left asleep. -/
theorem test_setfreq_left_asleep :
    deviceAfter 0x0600000000000320 (machine .ready [(0x00, 0x00)] [device, device, fails]) =
      some ([(0x00, 0x10)], true, false) := by decide

/-- V72. -/
theorem test_setch :
    deviceAfter 0x0700000F01230ABC (machine .ready [] [device, device, device, device]) =
      some ([(0x42, 0x23), (0x43, 0x01), (0x44, 0xBC), (0x45, 0x0A)], true, false) := by decide

/-- V77. -/
theorem test_setch_third_write_fails :
    offered 0x0700000300000800 (machine .ready [] [device, device, fails]) =
      some ([.write 0x40 0x12 0x00 true, .write 0x40 0x13 0x00 true, .write 0x40 0x14 0x00 false],
        .busWriteFailed, 0x00, .ready) := by decide

/-! ### Priority of the checks (section 2.3) and the illegal words -/

/-- V29f: the state gate comes before the operand check. -/
theorem test_gate_before_operand :
    offered 0x0700001000000000 (machine .closed [] []) = some ([], .noHandle, 0x00, .closed) := by
  decide

/-- V29g. -/
theorem test_not_ready_before_frequency :
    offered 0x0600000000000000 (machine .opened [] []) = some ([], .notReady, 0x00, .opened) := by
  decide

/-- V29h: decoding comes before the state gate. -/
theorem test_illegal_before_gate :
    offered 0x0700010300000800 (machine .closed [] []) =
      some ([], .illegalCommand, 0x00, .closed) := by decide

/-- V29d: FATAL comes before decoding. -/
theorem test_fatal_before_decoding :
    offered 0xFFFFFFFFFFFFFFFF (machine .fatal [] []) = some ([], .fatal, 0x00, .fatal) := by
  decide

/-! ### Arithmetic (section 2.4) -/

/-- V30, V33, V40, V50, V51, V53. -/
theorem test_prescale :
    prescaleByte {} 1 = 0xFF ∧ prescaleByte {} 381 = 0xFF ∧ prescaleByte {} 800 = 0x79 ∧
    prescaleByte {} 27901 = 0x03 ∧ prescaleByte {} 27902 = 0x03 ∧
    prescaleByte {} 1600000 = 0x03 := by decide

/-- V57: a tie goes up. -/
theorem test_prescale_tie : prescaleByte { oscClockHz := 24576000 } 1536 = 0x3E := by decide

/-! ### Reset, waiting, the second master (section 2.7) -/

/-- V80 with V81's FATAL: what `rst` leaves of the block. -/
theorem test_hardware_reset :
    (nextOf (step { machine .fatal [(0x00, 0x10)] [] with host := [.reset] })).map
        (fun t => (t.hostOutputs, t.trace, t.env.device)) =
      some (⟨true, false, 0x0, 0x00, false, false, false, 0x0⟩, [],
        ⟨false, [(0x00, 0x10)], false⟩) := by decide

/-- V82: the first wait of SETFREQ has not ended; there is no response, and the
trace ends with the sleep write. -/
theorem test_waiting_in_delay :
    (nextOf (step ((machine .ready [(0x00, 0x00)] [device, device, waits]).offerNow
        0x0600000000000320))).map
        (fun t => (t.busy, t.step, t.respValid, t.trace)) =
      some (true, 2, false,
        [.read 0x40 0x00 (some 0x00), .write 0x40 0x00 0x10 true]) := by decide

/-- Rule R182: a failed write leaves every register but its own as it was, whatever the environment says. -/
theorem test_failed_write_changes_no_other_register :
    deviceAfter 0x0700000F01230ABC (machine .ready [(0x06, 0x2A)]
        [device, ⟨[], some (.fail [⟨0x06, some 0x00⟩, ⟨0x42, some 0x77⟩, ⟨0x43, some 0x55⟩])⟩]) =
      some ([(0x06, 0x2A), (0x42, 0x23), (0x43, 0x55)], true, false) := by decide

/-- Rule R67: a failed read of another register may have had a side effect. -/
theorem test_failed_rdreg_may_change_the_device :
    deviceAfter 0x0300000000000600 (machine .ready [(0x06, 0x2A)]
        [⟨[], some (.fail [⟨0x06, some 0x77⟩])⟩]) =
      some ([(0x06, 0x77)], true, false) := by decide

/-- U2 with a second master: what its prescale write outside sleep mode leaves is any value. -/
theorem test_free_foreign_prescale_write :
    (nextOf (step { machine .ready [(0x00, 0x00)] [⟨[.free [⟨0xFE, some 0x33⟩]], none⟩] with
        cfg := { externalMaster := true } })).map (fun t => t.env.device) =
      some ⟨true, [(0x00, 0x00), (0xFE, 0x33)], false⟩ := by decide

/-- Rule R176: a failed read leaves the device untouched. -/
theorem test_failed_read_changes_nothing :
    deviceAfter 0x0600000000000320 (machine .ready [(0x00, 0x21)]
        [⟨[], some (.fail [⟨0x00, some 0x77⟩])⟩]) =
      some ([(0x00, 0x21)], true, false) := by decide

/-- V82: `rst` in the first wait of SETFREQ leaves the device asleep and every register in place. -/
theorem test_hardware_reset_in_a_delay :
    (nextOf (step { running .ready 0x0600000000000320 2 [] with
        env := (machine .ready [(0x00, 0x10)] []).env, host := [.reset] })).map
        (fun t => (t.fsm, t.busy, t.env.device)) =
      some (.closed, false, ⟨false, [(0x00, 0x10)], false⟩) := by decide

/-- V84: another master's write to MODE1 between events 1 and 2 is lost. -/
theorem test_second_master :
    (nextOf (exec (.setfreq false 800)
        { machine .ready [(0x00, 0x00)]
            [device, ⟨[.device (.write 0x00 0x20)], some .device⟩, device, device] with
          cfg := { externalMaster := true } })).map (fun t => t.env.device.reg) =
      some [(0x00, 0x00), (0xFE, 0x79)] := by decide

/-- Rule R77 while SETFREQ waits for its prescale write. -/
theorem test_bus_port :
    ({ running .ready 0x0600000000000320 3 [] with presc := 0x79 }).busOutputs =
      ⟨true, 1, 0x40, 0xFE, 0x79⟩ := by decide

/-! ### Witnesses: the hypotheses of each statement, met together -/

/-- A host that offers a word, with nothing else pending. -/
def offering (w : Word) (s : State) : State := { s with host := [.offer w] }

theorem noRow : ∀ o : Row, o.selects 0x0400000000000001 = false := by
  intro o
  cases o <;> decide

theorem witness_DecodeOfEncodeIsTheCommand :
    Row.selects .rowSetch 0x0700000F0FFF0FFF = true ∧
      ∀ o : Row, o.selects 0x0400000000000001 = false := ⟨by decide, noRow⟩

theorem witness_LegalWordIsTheEncodingOfItsCommand :
    decode 0x0700000F0FFF0FFF = some (.setch 15 0xFFF 0xFFF) := by decide

theorem witness_OpcodeRowsAreExclusive :
    Row.selects .rowSetfreq 0x06000001FFFFFFFF = true := by decide

/-- The clauses at their edges: opcodes 0x00 and 0x08, and the lowest reserved bit of each format. -/
theorem witness_IllegalWordsAreReservedOpcodesOrReservedBits :
    decode 0x00FFFFFFFFFFFFFF = none ∧ decode 0x0800000000000000 = none ∧
    decode 0x0500000000000080 = none ∧ decode 0x0200000000010000 = none ∧
    decode 0x0300000000000001 = none ∧ decode 0x0480000000000000 = none ∧
    decode 0x0680000000000000 = none ∧ decode 0x0700000080000000 = none := by decide

/-- The largest frequency of rule R114, and the next larger one. -/
theorem witness_SetfreqLineAssemblesExactly :
    (16 * 2684354559375 = 4294967295 * 10 ^ 4 ∧ 4294967295 < 2 ^ 32) ∧
    (∀ f : Nat, 16 * 268435456 = f * 10 ^ 0 → 2 ^ 32 ≤ f) ∧
    (∀ f : Nat, 16 * 5001 = f * 10 ^ 2 → 2 ^ 32 ≤ f) :=
  ⟨by decide, fun f h => by omega, fun f h => by omega⟩

theorem witness_StepRunsTheOfferedCommand :
    let s := offering 0x0300000000000600 (machine .ready [] [])
    s.cfg.wf = true ∧ s.busy = false ∧ s.host = .offer 0x0300000000000600 :: [] ∧
      decode 0x0300000000000600 = some (.rdreg 0x06) := by decide

theorem witness_FetchedWordIsRun :
    (machine .opened [] []).cfg.wf = true ∧
      decodeTableWord 64 0x0400000000000000 = some .reset := by decide

theorem witness_IllegalWordIsRefused :
    let s := offering 0x0400000000000001 (machine .ready [] [])
    s.cfg.wf = true ∧ s.busy = false ∧ s.host = .offer 0x0400000000000001 :: [] ∧
      s.fsm ≠ .fatal ∧ ∀ o : Row, o.selects 0x0400000000000001 = false :=
  ⟨by decide, rfl, rfl, by decide, noRow⟩

theorem witness_FatalAnswersEveryWord :
    let s := offering 0xFFFFFFFFFFFFFFFF (machine .fatal [] [])
    s.cfg.wf = true ∧ s.busy = false ∧ s.host = .offer 0xFFFFFFFFFFFFFFFF :: [] ∧
      s.fsm = .fatal := by decide

theorem witness_BusyBlockAcceptsNothing :
    let s := offering 0x0400000000000000 (running .ready 0x0300000000000000 0 [device])
    s.busy = true ∧ s.host = .offer 0x0400000000000000 :: [] ∧ ∃ t, step s = .next t :=
  ⟨rfl, rfl, _, rfl⟩

theorem witness_IdleBlockWaits :
    let s := machine .ready [] [device]
    s.cfg.wf = true ∧ s.busy = false ∧ s.host = [] ∧
      ∀ foreign rest, s.env.turns ≠ ⟨foreign, none⟩ :: rest :=
  ⟨by decide, rfl, rfl, fun _ _ h => by cases h⟩

theorem witness_IllFormedConfigurationIsRefused :
    ({ machine .closed [] [] with cfg := { tSettleUs := 499 } }).cfg.wf = false := by decide

/-- Each clause: FATAL, an illegal word, a failing operand check, and a word that passes. -/
theorem witness_FirstFailingCheckIsTheResponse :
    let s := offering 0x0700000F00000000 (machine .ready [] [])
    s.cfg.wf = true ∧ s.busy = false ∧ s.host = .offer 0x0700000F00000000 :: [] ∧
    (machine .fatal [] []).fsm = .fatal ∧ s.fsm ≠ .fatal ∧ decode 0x0400000000000001 = none ∧
    (decode 0x0700001000000000 = some (.setch 16 0 0) ∧
      refusalOf (.setch 16 0 0) s.fsm = some .invalidChannel) ∧
    decode 0x0700000F00000000 = some (.setch 15 0 0) ∧
    refusalOf (.setch 15 0 0) s.fsm = none ∧
    ∃ q, actionRequest (.setch 15 0 0) 0 { s with busy := true, step := 0 } = some q :=
  ⟨by decide, rfl, rfl, rfl, by decide, by decide, ⟨by decide, by decide⟩, by decide, by decide,
    _, rfl⟩

/-- Each clause of OPEN: the refusal in both states, the claim answered `ok`, and `fail`. -/
theorem witness_OpenClaimsTheBus :
    decode 0x010000000000007F = some (.openBus 0x7F) ∧
    (machine .opened [] []).fsm = .opened ∧ (machine .ready [] []).fsm = .ready ∧
    (machine .closed [] []).cfg.wf = true ∧
    (∃ d e, (machine .closed [] [device]).env.respond {} (.claim 0x7F) = (.ok d, e)) ∧
    (∃ e, (machine .closed [] [fails]).env.respond {} (.claim 0x7F) = (.fail, e)) :=
  ⟨by decide, rfl, rfl, by decide, ⟨_, _, rfl⟩, ⟨_, rfl⟩⟩

theorem witness_WrregWritesOneRegister :
    decode 0x020000000000FFFF = some (.wrreg 0xFF 0xFF) ∧
    (machine .closed [] []).fsm = .closed ∧ (machine .opened [] []).fsm = .opened ∧
    (machine .ready [] []).fsm = .ready ∧ (machine .ready [] []).cfg.wf = true ∧
    (∃ d e, (machine .ready [] [device]).env.respond {} (.write 0x40 0xFF 0xFF) = (.ok d, e)) ∧
    (∃ e, (machine .ready [] [fails]).env.respond {} (.write 0x40 0xFF 0xFF) = (.fail, e)) :=
  ⟨by decide, rfl, rfl, rfl, by decide, ⟨_, _, rfl⟩, ⟨_, rfl⟩⟩

theorem witness_RdregReturnsTheByteRead :
    decode 0x030000000000FF00 = some (.rdreg 0xFF) ∧
    (machine .closed [] []).fsm = .closed ∧ (machine .opened [] []).fsm = .opened ∧
    (machine .ready [] []).fsm = .ready ∧ (machine .ready [] []).cfg.wf = true ∧
    (∃ d e, (machine .ready [] [draws 0xEE]).env.respond {} (.read 0x40 0xFF) = (.ok d, e)) ∧
    (∃ e, (machine .ready [] [fails]).env.respond {} (.read 0x40 0xFF) = (.fail, e)) :=
  ⟨by decide, rfl, rfl, rfl, by decide, ⟨_, _, rfl⟩, ⟨_, rfl⟩⟩

theorem witness_ResetWritesMode1 :
    decode 0x0400000000000000 = some .reset ∧
    (machine .closed [] []).fsm = .closed ∧ (machine .opened [] []).fsm = .opened ∧
    (machine .ready [] []).fsm = .ready ∧ (machine .ready [] []).cfg.wf = true ∧
    (∃ d e, (machine .ready [] [device]).env.respond {} (.write 0x40 0x00 0x00) = (.ok d, e)) ∧
    (∃ e, (machine .opened [] [fails]).env.respond {} (.write 0x40 0x00 0x00) = (.fail, e)) :=
  ⟨by decide, rfl, rfl, rfl, by decide, ⟨_, _, rfl⟩, ⟨_, rfl⟩⟩

/-- Each clause of SETUP: refused, claim failed, both answered `ok`, reset write failed. -/
theorem witness_SetupClaimsThenResets :
    decode 0x0500000000000040 = some (.setup 0x40) ∧
    (machine .opened [] []).fsm = .opened ∧ (machine .closed [] []).fsm = .closed ∧
    (machine .closed [] []).cfg.wf = true ∧
    (∃ e, (machine .closed [] [fails]).env.respond {} (.claim 0x40) = (.fail, e)) ∧
    (∃ d e d' e', (machine .closed [] [device, device]).env.respond {} (.claim 0x40) = (.ok d, e) ∧
      e.respond {} (.write 0x40 0x00 0x00) = (.ok d', e')) ∧
    (∃ d e e', (machine .closed [] [device, fails]).env.respond {} (.claim 0x40) = (.ok d, e) ∧
      e.respond {} (.write 0x40 0x00 0x00) = (.fail, e')) :=
  ⟨by decide, rfl, rfl, by decide, ⟨_, rfl⟩, ⟨_, _, _, _, rfl, rfl⟩, ⟨_, _, _, rfl, rfl⟩⟩

theorem witness_SetfreqRefusals :
    decode 0x06000001FFFFFFFF = some (.setfreq true 0xFFFFFFFF) ∧
    (machine .closed [] []).cfg.wf = true ∧ (machine .closed [] []).fsm = .closed ∧
    (machine .opened [] []).fsm = .opened ∧ (machine .ready [] []).fsm = .ready :=
  ⟨by decide, by decide, rfl, rfl, rfl⟩

/-- Every answer of SETFREQ is `ok` (V61); with `RS` = 1 the seventh may also fail (V69). -/
theorem witness_SetfreqRunsTheSixSteps (last : EnvTurn) (hl : last = device ∨ last = fails) :
    let s := machine .ready [(0x00, 0x00)] [device, device, device, device, last]
    s.cfg.wf = true ∧ s.fsm = .ready ∧ (800 : BitVec 32) ≠ 0 ∧
    ∃ m d1 d2 d3 d4 d5 e0 e1 e2 e3 e4 e5,
      s.env.respond s.cfg (.read s.devaddr s.cfg.mode1Addr) = (.ok m, e0) ∧
      e0.respond s.cfg (.write s.devaddr s.cfg.mode1Addr (m ||| s.cfg.sleepMask)) = (.ok d1, e1) ∧
      e1.respond s.cfg (.delay s.cfg.tSettleUs) = (.ok d2, e2) ∧
      e2.respond s.cfg (.write s.devaddr s.cfg.prescaleAddr (prescaleByte s.cfg 800)) =
        (.ok d3, e3) ∧
      e3.respond s.cfg (.write s.devaddr s.cfg.mode1Addr (m &&& ~~~s.cfg.sleepMask)) =
        (.ok d4, e4) ∧
      e4.respond s.cfg (.delay s.cfg.tSettleUs) = (.ok d5, e5) ∧
      let q := Request.write s.devaddr s.cfg.mode1Addr
        (m &&& ~~~s.cfg.sleepMask ||| s.cfg.restartMask)
      ((∃ d6 e6, e5.respond s.cfg q = (.ok d6, e6)) ∨ ∃ e6, e5.respond s.cfg q = (.fail, e6)) := by
  rcases hl with rfl | rfl
  · exact ⟨by decide, rfl, by decide, 0x00, _, _, _, _, _, _, _, _, _, _, _, rfl, rfl, rfl, rfl, rfl,
      rfl, .inl ⟨_, _, rfl⟩⟩
  · exact ⟨by decide, rfl, by decide, 0x00, _, _, _, _, _, _, _, _, _, _, _, rfl, rfl, rfl, rfl, rfl,
      rfl, .inr ⟨_, rfl⟩⟩

/-- V65 to V68: each of the four places where SETFREQ can fail. -/
theorem witness_SetfreqStopsAtTheFirstFailure :
    let m := machine .ready [(0x00, 0x00)]
    (m []).cfg.wf = true ∧ (m []).fsm = .ready ∧ (800 : BitVec 32) ≠ 0 ∧
    (∃ e, (m [fails]).env.respond {} (.read 0x40 0x00) = (.fail, e)) ∧
    (∃ v e0 e, (m [device, fails]).env.respond {} (.read 0x40 0x00) = (.ok v, e0) ∧
      e0.respond {} (.write 0x40 0x00 0x10) = (.fail, e)) ∧
    (∃ v e0 d1 e1 d2 e2 e, (m [device, device, fails]).env.respond {} (.read 0x40 0x00) =
        (.ok v, e0) ∧ e0.respond {} (.write 0x40 0x00 0x10) = (.ok d1, e1) ∧
      e1.respond {} (.delay 500) = (.ok d2, e2) ∧
      e2.respond {} (.write 0x40 0xFE 0x79) = (.fail, e)) ∧
    (∃ v e0 d1 e1 d2 e2 d3 e3 e, (m [device, device, device, fails]).env.respond {}
        (.read 0x40 0x00) = (.ok v, e0) ∧ e0.respond {} (.write 0x40 0x00 0x10) = (.ok d1, e1) ∧
      e1.respond {} (.delay 500) = (.ok d2, e2) ∧
      e2.respond {} (.write 0x40 0xFE 0x79) = (.ok d3, e3) ∧
      e3.respond {} (.write 0x40 0x00 0x00) = (.fail, e)) :=
  ⟨by decide, rfl, by decide, ⟨_, rfl⟩, ⟨0x00, _, _, rfl, rfl⟩,
    ⟨0x00, _, _, _, _, _, _, rfl, rfl, rfl, rfl⟩,
    ⟨0x00, _, _, _, _, _, _, _, _, rfl, rfl, rfl, rfl, rfl⟩⟩

/-- The last channel and the first that is refused; all four answers `ok`, and a failure at each. -/
theorem witness_SetchWritesFourRegisters :
    decode 0x0700000F01230ABC = some (.setch 15 0x123 0xABC) ∧
    (15 : Byte).toNat ≤ 15 ∧ (16 : Byte).toNat > 15 ∧
    (machine .ready [] []).cfg.wf = true ∧ (machine .ready [] []).fsm = .ready ∧
    (∃ e, (machine .ready [] [fails]).env.respond {} (.write 0x40 0x42 0x23) = (.fail, e)) ∧
    (∃ d0 e0 e, (machine .ready [] [device, fails]).env.respond {} (.write 0x40 0x42 0x23) =
        (.ok d0, e0) ∧ e0.respond {} (.write 0x40 0x43 0x01) = (.fail, e)) ∧
    (∃ d0 e0 d1 e1 e, (machine .ready [] [device, device, fails]).env.respond {}
        (.write 0x40 0x42 0x23) = (.ok d0, e0) ∧
      e0.respond {} (.write 0x40 0x43 0x01) = (.ok d1, e1) ∧
      e1.respond {} (.write 0x40 0x44 0xBC) = (.fail, e)) ∧
    (∀ last : EnvTurn, last = device ∨ last = fails → ∃ d0 e0 d1 e1 d2 e2 a,
      (machine .ready [] [device, device, device, last]).env.respond {} (.write 0x40 0x42 0x23) =
        (.ok d0, e0) ∧ e0.respond {} (.write 0x40 0x43 0x01) = (.ok d1, e1) ∧
      e1.respond {} (.write 0x40 0x44 0xBC) = (.ok d2, e2) ∧
      (e2.respond {} (.write 0x40 0x45 0x0A)).1 = a ∧ ((∃ d, a = .ok d) ∨ a = .fail)) := by
  refine ⟨by decide, by decide, by decide, by decide, rfl, ⟨_, rfl⟩, ⟨_, _, _, rfl, rfl⟩,
    ⟨_, _, _, _, _, rfl, rfl, rfl⟩, fun last hl => ?_⟩
  rcases hl with rfl | rfl
  · exact ⟨_, _, _, _, _, _, _, rfl, rfl, rfl, rfl, .inl ⟨_, rfl⟩⟩
  · exact ⟨_, _, _, _, _, _, _, rfl, rfl, rfl, rfl, .inr rfl⟩

theorem witness_UnansweredCommandKeepsRunning :
    let s := machine .closed [] [waits]
    s.cfg.wf = true ∧ refusalOf (.setup 0x40) s.fsm = none ∧
      ∃ q e, actionRequest (.setup 0x40) 0 { s with busy := true, step := 0 } = some q ∧
        s.env.respond s.cfg q = (.pending, e) :=
  ⟨by decide, rfl, _, _, rfl, rfl⟩

/-- A SETUP that will be made to wait between its two actions. -/
theorem witness_WaitingDoesNotChangeACommand :
    let s := { machine .closed [] [device, device] with cmd := 0x0500000000000040 }
    s.cfg.wf = true ∧ decode s.cmd = some (.setup 0x40) ∧ s.host = [] ∧
      s.env.turns = [device] ++ [device] ∧
      ∃ t, exec (.setup 0x40) s = .next t ∧ t.busy = false :=
  ⟨by decide, by decide, rfl, rfl, _, rfl, by decide⟩

/-- Nothing fails; the claim fails; the reset write fails. -/
theorem witness_SetupIsOpenThenReset :
    let s := machine .closed [] [device, device]
    s.cfg.wf = true ∧ s.fsm = .closed ∧
      (∃ d e d' e', s.env.respond s.cfg (.claim 0x40) = (.ok d, e) ∧
        e.respond s.cfg (.write 0x40 s.cfg.mode1Addr 0x00) = (.ok d', e')) ∧
      (∃ e, (machine .closed [] [fails]).env.respond {} (.claim 0x40) = (.fail, e)) ∧
      ∃ d e e', (machine .closed [] [device, fails]).env.respond {} (.claim 0x40) = (.ok d, e) ∧
        e.respond {} (.write 0x40 0x00 0x00) = (.fail, e') :=
  ⟨by decide, rfl, ⟨_, _, _, _, rfl, rfl⟩, ⟨_, rfl⟩, _, _, _, rfl, rfl⟩

/-- Each clause of the reference device: both values of `claimed`, a wrong address, the prescale register
awake and asleep, a register with and without a value. -/
theorem witness_ReferenceDeviceAnswers :
    let e := (machine .ready [(0x00, 0x10)] []).env
    e.turns = [] ∧ e.answering = .referenceDevice ∧ Config.externalMaster {} = false ∧
      e.device.claimed = true ∧ (machine .closed [] []).env.device.claimed = false ∧
      (0x41 : BusAddr) ≠ Config.deviceAddr {} ∧
      memGet e.device.reg 0x00 = some 0x10 ∧ memGet e.device.reg 0x01 = none ∧
      e.device.asleep {} = true ∧ (machine .ready [(0x00, 0xEF)] []).env.device.asleep {} = false ∧
      (machine .ready [] []).env.device.asleep {} = false := by decide

theorem onDevice (f : Fsm) (hf : f = .opened ∨ f = .ready) (m : Memory) :
    OnReferenceDevice (machine f m []) :=
  ⟨(by decide : Config.wf {} = true), rfl, rfl, rfl, by rcases hf with rfl | rfl <;> rfl⟩

/-- The prescale register while the device is awake, and while it is asleep. -/
theorem witness_WrregOnTheReferenceDevice :
    OnReferenceDevice (machine .ready [(0x00, 0x10)] []) ∧
      (machine .ready [(0x00, 0x10)] []).env.device.asleep {} = true ∧
      OnReferenceDevice (machine .ready [(0x00, 0x00)] []) ∧
      (machine .ready [(0x00, 0x00)] []).env.device.asleep {} = false :=
  ⟨onDevice _ (.inr rfl) _, by decide, onDevice _ (.inr rfl) _, by decide⟩

theorem witness_CommandsThatStoreNothingKeepTheDevice :
    let s := machine .ready [(0x06, 0x2A)] []
    s.cfg.wf = true ∧ s.env.turns = [] ∧ s.env.answering = .referenceDevice ∧
      s.cfg.externalMaster = false ∧ (refusalOf (.setch 16 0 0) s.fsm).isSome = true := by decide

theorem witness_RdregReadsBackOnTheReferenceDevice :
    OnReferenceDevice (machine .ready [] []) ∧ (machine .ready [] []).fsm = .ready ∧
      (0xFF : RegAddr) ≠ (machine .ready [] []).cfg.prescaleAddr :=
  ⟨onDevice _ (.inr rfl) _, rfl, by decide⟩

theorem witness_ResetOnTheReferenceDevice :
    OnReferenceDevice (machine .opened [(0x00, 0xB1)] []) ∧
      (machine .opened [(0x00, 0xB1)] []).fsm = .opened :=
  ⟨onDevice _ (.inl rfl) _, rfl⟩

/-- The device's own address, and another one. -/
theorem witness_SetupOnTheReferenceDevice :
    let s := machine .closed [] []
    s.cfg.wf = true ∧ s.env.turns = [] ∧ s.env.answering = .referenceDevice ∧
      s.cfg.externalMaster = false ∧ s.fsm = .closed ∧ s.env.device.claimed = false ∧
      (0x40 : BusAddr) = s.cfg.deviceAddr ∧ (0x41 : BusAddr) ≠ s.cfg.deviceAddr := by decide

/-- MODE1 with a value, and still without one (V69a). -/
theorem witness_SetfreqOnTheReferenceDevice :
    (1 : BitVec 32) ≠ 0 ∧
    (OnReferenceDevice (machine .ready [(0x00, 0x91)] []) ∧
      (machine .ready [(0x00, 0x91)] []).fsm = .ready) ∧
    OnReferenceDevice (machine .ready [] []) ∧ (machine .ready [] []).fsm = .ready :=
  ⟨by decide, ⟨onDevice _ (.inr rfl) _, rfl⟩, onDevice _ (.inr rfl) _, rfl⟩

theorem witness_SetchOnTheReferenceDevice :
    OnReferenceDevice (machine .ready [] []) ∧ (machine .ready [] []).fsm = .ready ∧
      (15 : Byte).toNat ≤ 15 :=
  ⟨onDevice _ (.inr rfl) _, rfl, by decide⟩

theorem witness_CompositeCommandsKeepThePrescaleRule :
    let s := machine .ready [(0x00, 0x00)] []
    (∀ r v, Instr.setfreq true 800 ≠ .wrreg r v) ∧ s.cfg.wf = true ∧ s.env.turns = [] ∧
      s.env.answering = .referenceDevice ∧ s.cfg.externalMaster = false :=
  ⟨(fun _ _ h => nomatch h), by decide, rfl, rfl, rfl⟩

/-- A request that is not answered, the reference device's own turn, and an idle step in which a second
master would write if there were one. -/
theorem witness_NoSecondMasterNoForeignTransaction :
    let waiting := machine .ready [] [⟨[.device (.write 0x00 0x20)], none⟩]
    let alone := machine .ready [] []
    waiting.cfg.externalMaster = false ∧
    (∃ e, waiting.env.respond waiting.cfg (.claim 0x40) = (.pending, e)) ∧
    (alone.cfg.externalMaster = false ∧ alone.env.turns = [] ∧
      alone.env.answering = .referenceDevice) ∧
    waiting.busy = false ∧ waiting.host = [] ∧ ∃ t, step waiting = .next t :=
  ⟨rfl, ⟨_, rfl⟩, ⟨rfl, rfl, rfl⟩, rfl, rfl, _, rfl⟩

/-- The invariant in a state between commands. -/
theorem inv_between : (machine .ready [(0x00, 0x00), (0xFE, 0x79)] [device]).Inv where
  memory := by decide
  claim := rfl
  rest _ := rfl
  running h := by cases h
  fatalCodeClear _ := rfl
  fatalCodeCause h := by cases h
  errorData h := absurd rfl h

/-- The invariant in a state in which SETFREQ stands before its prescale write. -/
theorem inv_running : (running .ready 0x0600000100000320 3 [device, device, device]).Inv where
  memory := by decide
  claim := rfl
  rest h := by cases h
  running _ := ⟨.setfreq true 800, by decide, by decide, by decide, by decide⟩
  fatalCodeClear _ := rfl
  fatalCodeCause h := by cases h
  errorData h := absurd rfl h

/-- The invariant in FATAL. -/
theorem inv_fatal : (machine .fatal [] []).Inv where
  memory := by decide
  claim := rfl
  rest _ := rfl
  running h := by cases h
  fatalCodeClear h := absurd rfl h
  fatalCodeCause _ := .inr rfl
  errorData h := absurd rfl h

theorem witness_EveryStepKeepsTheInvariant :
    (running .ready 0x0600000100000320 3 [device, device, device]).Inv ∧
      ∃ t, step (running .ready 0x0600000100000320 3 [device, device, device]) = .next t :=
  ⟨inv_running, _, rfl⟩

theorem witness_TheMachineNeverStops :
    (machine .ready [(0x00, 0x00), (0xFE, 0x79)] [device]).Inv ∧
      (machine .ready [(0x00, 0x00), (0xFE, 0x79)] [device]).cfg.wf = true :=
  ⟨inv_between, by decide⟩

theorem witness_FsmMovesOnlyAsTabled :
    (machine .ready [(0x00, 0x00), (0xFE, 0x79)] [device]).Inv ∧
      ∃ t, step (machine .ready [(0x00, 0x00), (0xFE, 0x79)] [device]) = .next t :=
  ⟨inv_between, _, rfl⟩

theorem witness_FatalIsLeftOnlyByHardwareReset :
    (machine .fatal [] []).Inv ∧ (machine .fatal [] []).fsm = .fatal ∧
      ∃ t, step (machine .fatal [] []) = .next t :=
  ⟨inv_fatal, rfl, _, rfl⟩

/-- V11: the claim fails; V12: the reset write fails. -/
theorem witness_OnlyAFailedSetupEntersFatal (turns : List EnvTurn)
    (ht : turns = [fails] ∨ turns = [device, fails]) :
    let s := offering 0x0500000000000040 (machine .closed [] turns)
    ∃ t, step s = .next t ∧ s.fsm ≠ .fatal ∧ t.fsm = .fatal := by
  rcases ht with rfl | rfl
  · exact ⟨_, rfl, by decide, by decide⟩
  · exact ⟨_, rfl, by decide, by decide⟩

/-- With nothing left on offer, and no time-passing turn next. -/
theorem witness_HardwareResetValues :
    let s := { running .ready 0x0600000000000320 3 [device] with host := [.reset] }
    s.cfg.wf = true ∧ s.host = .reset :: [] ∧
      ∃ t, step s = .next t ∧ ∀ foreign turns, t.env.turns ≠ ⟨foreign, none⟩ :: turns :=
  ⟨by decide, rfl, _, rfl, fun _ _ h => by cases h⟩

/-- Nothing runs; SETFREQ waits in each of its delays (V82); the reference device has a write outstanding. -/
theorem witness_HardwareResetKeepsTheDevice :
    let s := fun k => { running .ready 0x0600000000000320 k [] with host := [.reset] }
    let idle := { machine .ready [(0x00, 0x10), (0xFE, 0x79)] [] with host := [.reset] }
    (idle.cfg.wf = true ∧ idle.host = .reset :: [] ∧ idle.busy = false) ∧
    (∀ k, (s k).cfg.wf = true ∧ (s k).host = .reset :: []) ∧
    decode (s 2).cmd = some (.setfreq false 800) ∧ (s 2).step = 2 ∧
    decode (s 5).cmd = some (.setfreq false 800) ∧ (s 5).step = 5 ∧
    (s 4).env.turns = [] ∧ (s 4).env.answering = .referenceDevice ∧
    (s 4).cfg.externalMaster = false ∧ (s 4).outstanding = some (.write 0x40 0x00 0x00) :=
  ⟨⟨by decide, rfl, rfl⟩, fun _ => ⟨test_default_config_is_wf, rfl⟩, by decide, rfl, by decide, rfl,
    rfl, rfl, rfl, by decide⟩

/-- A command that is answered, and one that is left waiting. -/
theorem witness_OneResponsePerAcceptedWord (turn : EnvTurn) (ht : turn = device ∨ turn = waits) :
    let s := offering 0x0400000000000000 (machine .opened [] [turn])
    s.busy = false ∧ s.host = .offer 0x0400000000000000 :: [] ∧
      ∃ t, step s = .next t ∧ t.busy = (turn == waits) := by
  rcases ht with rfl | rfl
  · exact ⟨rfl, rfl, _, rfl, by decide⟩
  · exact ⟨rfl, rfl, _, rfl, by decide⟩

/-- A command run whole (S3 with the restart write), and one that a step goes on with after its first wait. -/
theorem witness_EventsOfAStep :
    (∃ t, exec (.setfreq true 800)
      (machine .ready [(0x00, 0x00)] [device, device, device, device, device]) = .next t ∧
        (addedEvents (machine .ready [] []) t).length = 7) ∧
    ∃ t, step (running .ready 0x0600000100000320 2 [device, device, device]) = .next t ∧
      (addedEvents (machine .ready [] []) t).length = 5 :=
  ⟨⟨_, rfl, by decide⟩, _, rfl, by decide⟩

/-- A claim that succeeds, and a hardware reset. -/
theorem witness_OnlyASuccessfulClaimWritesDevaddr :
    (∃ t, step (offering 0x0100000000000041 (machine .closed [] [device])) = .next t ∧
      t.devaddr ≠ 0x00) ∧
    ∃ t, step { machine .ready [] [] with host := [.reset] } = .next t ∧
      t.devaddr ≠ (machine .ready [] []).devaddr :=
  ⟨⟨_, rfl, by decide⟩, _, rfl, by decide⟩

/-- SETUP run whole, and SETUP gone on with at its reset write. -/
theorem witness_InitializationWritesOnlyZeroToMode1 :
    (∃ t, exec (.setup 0x40) (machine .closed [] [device, fails]) = .next t ∧
      addedEvents (machine .closed [] []) t ≠ []) ∧
    let s := running .opened 0x0500000000000040 1 [device]
    s.busy = true ∧ decode s.cmd = some (.setup 0x40) ∧
      ∃ t, step s = .next t ∧ addedEvents s t = [.write 0x40 0x00 0x00 true] :=
  ⟨⟨_, rfl, by decide⟩, rfl, by decide, _, rfl, by decide⟩

theorem witness_TemporariesCarryNothingOver :
    ∃ t, exec (.setfreq false 800) (machine .ready [(0x00, 0x00)] [fails]) = .next t :=
  ⟨_, rfl⟩

theorem witness_OnlySetfreqWritesTheTemporaries :
    (∀ rs f, Instr.reset ≠ .setfreq rs f) ∧
      ∃ t, exec .reset (machine .opened [] [device]) = .next t :=
  ⟨(fun _ _ h => nomatch h), _, rfl⟩

theorem witness_NoStepChangesTheConfiguration : ∃ t, step (machine .opened [] []) = .next t :=
  ⟨_, rfl⟩

/-- Each clause: below the range (V51), above it (V32), at both ends (V33, V50). -/
theorem witness_PrescaleByteIsRoundedAndClamped :
    Config.wf {} = true ∧ (27902 : BitVec 32) ≠ 0 ∧
      ((25000000 + 128 * 27902) / (256 * 27902) : Nat) - 1 < 3 ∧
      255 < ((25000000 + 128 * 380) / (256 * 380) : Nat) - 1 ∧
      ((25000000 + 128 * 381) / (256 * 381) : Nat) - 1 = 255 ∧
      ((25000000 + 128 * 27901) / (256 * 27901) : Nat) - 1 = 3 := by decide

/-- Both ends of the range (V33, V50). -/
theorem witness_FrequencyIsWithinTheTolerance :
    Config.wf {} = true ∧ (381 : BitVec 32) ≠ 0 ∧
      3 ≤ prescaleUnclamped 25000000 381 ∧ prescaleUnclamped 25000000 381 ≤ 255 ∧
      3 ≤ prescaleUnclamped 25000000 27901 ∧ prescaleUnclamped 25000000 27901 ≤ 255 := by decide

/-- Just outside both ends (V32, V51). -/
theorem witness_DefaultUnclampedRange :
    (380 : BitVec 32) ≠ 0 ∧ ¬ prescaleUnclamped 25000000 380 ≤ 255 ∧
      ¬ 3 ≤ prescaleUnclamped 25000000 27902 := by decide

theorem witness_ChannelAddressesDoNotWrap :
    Config.wf { chBaseAddr := 0xC0, prescaleAddr := 0x02 } = true ∧ (15 : Byte).toNat ≤ 15 ∧
      3 < 4 := by decide

/-- A failed claim, read and write, each clause's own; a failure at another bus address; and a SETCH whose third write fails (V77). -/
theorem witness_FailedTransactionsLeaveTheOtherRegisters :
    let s := machine .ready [] [device, device, fails]
    s.cfg.wf = true ∧ s.cfg.externalMaster = false ∧
    (∃ e, (machine .ready [] [fails]).env.respond {} (.read 0x40 0x00) = (.fail, e)) ∧
    (∃ e, (machine .closed [] [fails]).env.respond {} (.claim 0x40) = (.fail, e)) ∧
    ((0x41 : BusAddr) ≠ s.cfg.deviceAddr ∧
      ∃ e, (machine .ready [] [fails]).env.respond {} (.read 0x41 0x06) = (.fail, e)) ∧
    (s.cfg.inChannelBlock 0x45 = true ∧
      ∃ e, (machine .ready [] [fails]).env.respond {} (.write 0x40 0x45 0x0A) = (.fail, e)) ∧
    s.fsm = .ready ∧ (15 : Byte).toNat ≤ 15 ∧ s.devaddr = s.cfg.deviceAddr ∧
    ∃ t, exec (.setch 15 0x123 0xABC) s = .next t ∧ t.busy = false ∧ t.respStatus ≠ .ok :=
  ⟨by decide, rfl, ⟨_, rfl⟩, ⟨_, rfl⟩, ⟨by decide, _, rfl⟩, ⟨by decide, _, rfl⟩, rfl, by decide, rfl, _, rfl,
    by decide, by decide⟩

theorem witness_Mode1BytesKeepTheOtherBits :
    Config.wf { sleepMask := 0x01, restartMask := 0x80 } = true := by decide

end Sys2Proof.Tests
end

/-! ### The actions of a command, said once -/

namespace Sys2Proof.Machine

open Sys2Proof.Statements

/-- What the success of action `k` writes to the block's registers, before the command advances or
completes (rules R25, R31, R151, R155). -/
def onSuccess (i : Instr) (k : Nat) (d : Byte) (s : State) : State :=
  match i with
  | .openBus a => s.takeHandle a
  | .reset => { s with fsm := .ready }
  | .setup a => if k = 0 then s.takeHandle a else { s with fsm := .ready }
  | .setfreq _ _ => if k = 0 then { s with oldmode := d } else s
  | .wrreg _ _ | .rdreg _ | .setch _ _ _ => s

/-- How a failure of action `k` ends the command (rules R29, R131 to R182). The waits of SETFREQ
cannot fail. -/
def onFailure (i : Instr) (k : Nat) (s : State) : State :=
  match i with
  | .openBus _ => s.raise .busOpenFailed
  | .wrreg _ _ | .setch _ _ _ => s.raise .busWriteFailed
  | .rdreg _ => s.raise .busReadFailed
  | .reset => { s with fsm := .opened }.raise .resetFailed
  | .setup _ =>
    if k = 0 then s.enterFatal .busOpenFailed else s.releaseHandle.enterFatal .resetFailed
  | .setfreq _ _ =>
    match k with
    | 0 => s.raise .busReadFailed
    | 2 | 5 => s
    | _ => s.raise .busWriteFailed

theorem onFailure_setup_reset {a : BusAddr} {k : Nat} (hk : k ≠ 0) (s : State) :
    onFailure (.setup a) k s = s.releaseHandle.enterFatal .resetFailed := if_neg hk

/-- The data of the response that ends a successful command: only RDREG has any (rules R32,
R139). -/
def responseData (i : Instr) (d : Byte) : Byte :=
  match i with
  | .rdreg _ => d
  | .openBus _ | .wrreg _ _ | .reset | .setup _ | .setfreq _ _ | .setch _ _ _ => 0x00

/-- What a command latches when it has passed its checks (rule R31). -/
def onStart (i : Instr) (s : State) : State :=
  match i with
  | .setfreq _ f => { s with presc := prescaleByte s.cfg f }
  | .openBus _ | .wrreg _ _ | .rdreg _ | .reset | .setup _ | .setch _ _ _ => s

@[simp] theorem onStart_cfg (i : Instr) (s : State) : (onStart i s).cfg = s.cfg := by
  cases i <;> rfl

@[simp] theorem onStart_fsm (i : Instr) (s : State) : (onStart i s).fsm = s.fsm := by
  cases i <;> rfl

@[simp] theorem onStart_devaddr (i : Instr) (s : State) : (onStart i s).devaddr = s.devaddr := by
  cases i <;> rfl

@[simp] theorem onStart_cmd (i : Instr) (s : State) : (onStart i s).cmd = s.cmd := by
  cases i <;> rfl

@[simp] theorem onStart_env (i : Instr) (s : State) : (onStart i s).env = s.env := by
  cases i <;> rfl

@[simp] theorem onStart_trace (i : Instr) (s : State) : (onStart i s).trace = s.trace := by
  cases i <;> rfl

/-- The environment after an answer, and the event it leaves (rule R13). -/
def State.answered (s : State) (q : Request) (a : Answer) (e : Env) : State :=
  { s with env := e, trace := s.trace ++ q.event a }

/-- Everything that can happen when command `i` goes on with its action `k` in `s`, which asks for
`q`, and the step ends in `t`. -/
inductive ActionOutcome (i : Instr) (k : Nat) (s t : State) (q : Request) : Prop
  | waits (e : Env) (hr : s.env.respond s.cfg q = (.pending, e))
      (ht : t = s.answered q .pending e)
  | fails (e : Env) (hr : s.env.respond s.cfg q = (.fail, e))
      (ht : t = onFailure i k (s.answered q .fail e))
  | completes (d : Byte) (e : Env) (hr : s.env.respond s.cfg q = (.ok d, e))
      (hk : k + 1 = actionCount i)
      (ht : t = (onSuccess i k d (s.answered q (.ok d) e)).complete (responseData i d))
  | continues (d : Byte) (e : Env) (hr : s.env.respond s.cfg q = (.ok d, e))
      (hk : k + 1 < actionCount i)
      (ht : resumeAt i (k + 1) (onSuccess i k d (s.answered q (.ok d) e)).advance = some t)

/-- The last action of a list. -/
theorem ActionOutcome.of_last {i : Instr} {k : Nat} {s : State} {q : Request}
    {f : Byte → State → State} {g : State → State} (hk : k + 1 = actionCount i)
    (hf : ∀ d s, f d s = (onSuccess i k d s).complete (responseData i d))
    (hg : ∀ s, g s = onFailure i k s) : ActionOutcome i k s (s.perform q f g) q := by
  rcases s.perform_cases q f g with ⟨d, e, hr, ht⟩ | ⟨e, hr, ht⟩ | ⟨e, hr, ht⟩
  · exact .completes d e hr hk (ht.trans (hf d _))
  · exact .fails e hr (ht.trans (hg _))
  · exact .waits e hr (by simpa [State.answered] using ht)

/-- An action with another one behind it. -/
theorem ActionOutcome.of_next {i : Instr} {k : Nat} {s : State} {q : Request}
    {f : Byte → State → State} {g : State → State} (hk : k + 1 < actionCount i)
    (hf : ∀ d s, resumeAt i (k + 1) (onSuccess i k d s).advance = some (f d s))
    (hg : ∀ s, g s = onFailure i k s) : ActionOutcome i k s (s.perform q f g) q := by
  rcases s.perform_cases q f g with ⟨d, e, hr, ht⟩ | ⟨e, hr, ht⟩ | ⟨e, hr, ht⟩
  · exact .continues d e hr hk (by rw [ht]; exact hf d _)
  · exact .fails e hr (ht.trans (hg _))
  · exact .waits e hr (by simpa [State.answered] using ht)

theorem resumeSetup_outcome {a : BusAddr} {k : Nat} {s t : State}
    (h : resumeSetup a k s = some t) :
    ∃ q, setupRequest a k s = some q ∧ ActionOutcome (.setup a) k s t q := by
  unfold resumeSetup at h
  split at h <;> cases h
  · exact ⟨_, rfl, .of_next (Nat.lt_succ_self 1) (fun _ _ => rfl) fun _ => rfl⟩
  · exact ⟨_, rfl, .of_last rfl (fun _ _ => rfl) fun _ => rfl⟩

theorem resumeSetfreq_outcome {rs : Bool} {f : BitVec 32} {k : Nat} {s t : State}
    (h : resumeSetfreq rs k s = some t) :
    ∃ q, setfreqRequest rs k s = some q ∧ ActionOutcome (.setfreq rs f) k s t q := by
  have more {j : Nat} (hj : j < 5) : j + 1 < actionCount (.setfreq rs f) := by
    simp only [actionCount]; split <;> omega
  unfold resumeSetfreq at h
  split at h
  case h_6 =>
    cases h
    cases rs with
    | false => exact ⟨_, rfl, .of_last rfl (fun _ _ => rfl) fun _ => rfl⟩
    | true => exact ⟨_, rfl, .of_next (Nat.lt_succ_self 6) (fun _ _ => rfl) fun _ => rfl⟩
  case h_7 =>
    split at h <;> cases h
    next hrs =>
      exact ⟨_, if_pos hrs, .of_last (by simp [actionCount, hrs]) (fun _ _ => rfl) fun _ => rfl⟩
  case h_8 => cases h
  all_goals
    cases h
    exact ⟨_, rfl, .of_next (more (by decide)) (fun _ _ => rfl) fun _ => rfl⟩

theorem resumeSetch_outcome {ch : Byte} {on off : Tick} {k : Nat} {s t : State}
    (h : resumeSetch ch on off k s = some t) :
    ActionOutcome (.setch ch on off) k s t (channelWrite ch on off k s) ∧ k < 4 := by
  have more {j : Nat} (hj : j < 3) : j + 1 < actionCount (.setch ch on off) := by
    simp only [actionCount]; omega
  unfold resumeSetch at h
  split at h <;> cases h
  · exact ⟨.of_next (more (by decide)) (fun _ _ => rfl) fun _ => rfl, by decide⟩
  · exact ⟨.of_next (more (by decide)) (fun _ _ => rfl) fun _ => rfl, by decide⟩
  · exact ⟨.of_next (more (by decide)) (fun _ _ => rfl) fun _ => rfl, by decide⟩
  · exact ⟨.of_last rfl (fun _ _ => rfl) fun _ => rfl, by decide⟩

/-- Going on with a command performs the action its list has there. -/
theorem resumeAt_outcome {i : Instr} {k : Nat} {s t : State} (h : resumeAt i k s = some t) :
    ∃ q, actionRequest i k s = some q ∧ ActionOutcome i k s t q := by
  cases i with
  | openBus _ | wrreg _ _ | rdreg _ | reset =>
    obtain ⟨rfl, ⟨⟩⟩ := Option.ite_none_right_eq_some.mp h
    exact ⟨_, rfl, .of_last rfl (fun _ _ => rfl) fun _ => rfl⟩
  | setup a => exact resumeSetup_outcome h
  | setfreq rs f => exact resumeSetfreq_outcome h
  | setch ch on off =>
    obtain ⟨ho, hk⟩ := resumeSetch_outcome h
    exact ⟨_, if_pos hk, ho⟩

/-- The induction over the rest of an action list: `P k` holds before action `k`, `Q` where the step
ends. -/
theorem resumeAt_induction {i : Instr} {P : Nat → State → Prop} {Q : State → Prop}
    (waits : ∀ k s q e, P k s → actionRequest i k s = some q →
      s.env.respond s.cfg q = (.pending, e) → Q (s.answered q .pending e))
    (fails : ∀ k s q e, P k s → actionRequest i k s = some q →
      s.env.respond s.cfg q = (.fail, e) → Q (onFailure i k (s.answered q .fail e)))
    (completes : ∀ k s q d e, P k s → actionRequest i k s = some q →
      s.env.respond s.cfg q = (.ok d, e) → k + 1 = actionCount i →
      Q ((onSuccess i k d (s.answered q (.ok d) e)).complete (responseData i d)))
    (continues : ∀ k s q d e, P k s → actionRequest i k s = some q →
      s.env.respond s.cfg q = (.ok d, e) → k + 1 < actionCount i →
      P (k + 1) (onSuccess i k d (s.answered q (.ok d) e)).advance)
    {k : Nat} {s t : State} (h : P k s) (he : resumeAt i k s = some t) : Q t := by
  obtain ⟨q, hq, ho⟩ := resumeAt_outcome he
  cases ho with
  | waits e hr ht => exact ht ▸ waits k s q e h hq hr
  | fails e hr ht => exact ht ▸ fails k s q e h hq hr
  | completes d e hr hk ht => exact ht ▸ completes k s q d e h hq hr hk
  | continues d e hr hk ht =>
    exact resumeAt_induction waits fails completes continues (continues k s q d e h hq hr hk) ht
termination_by actionCount i - k

/-! #### The checks and the start of a command -/

theorem State.gateClosed_eq (s : State) (a : BusAddr) :
    s.gateClosed = refusalOf (.openBus a) s.fsm := by
  unfold State.gateClosed; split <;> simp [*, refusalOf]

theorem State.gateHandle_eq (s : State) : s.gateHandle = refusalOf .reset s.fsm := by
  unfold State.gateHandle; split <;> simp [*, refusalOf]

theorem State.gateReady_eq (s : State) (r : RegAddr) :
    s.gateReady = refusalOf (.rdreg r) s.fsm := by
  unfold State.gateReady; split <;> simp [*, refusalOf]

/-- Every command is its checks (rule R213) and then its action list from the first action on (rule
R27). -/
theorem exec_eq_command (i : Instr) (s : State) :
    ∃ run : State → State, exec i s = s.command (refusalOf i s.fsm) run ∧
      resumeAt i 0 (onStart i s).begin = some (run s) := by
  cases i with
  | openBus a => exact ⟨_, by rw [exec_openBus, s.gateClosed_eq a], rfl⟩
  | wrreg r v => exact ⟨_, by rw [exec_wrreg, s.gateReady_eq r]; rfl, rfl⟩
  | rdreg r => exact ⟨_, by rw [exec_rdreg, s.gateReady_eq r], rfl⟩
  | reset => exact ⟨_, by rw [exec_reset, s.gateHandle_eq], rfl⟩
  | setup a => exact ⟨_, by rw [exec_setup, s.gateClosed_eq a]; rfl, rfl⟩
  | setfreq rs f =>
    refine ⟨fun s => setfreqAction0 rs (onStart (.setfreq rs f) s).begin, ?_, rfl⟩
    rw [exec_setfreq, s.gateReady_eq 0]
    cases s.fsm <;> rfl
  | setch ch on off =>
    refine ⟨fun s => setchAction0 ch on off s.begin, ?_, rfl⟩
    rw [exec_setch, s.gateReady_eq 0]
    cases s.fsm <;> rfl

/-- Everything a command can do: it is refused, or it runs its action list. -/
theorem exec_cases {i : Instr} {s t : State} (h : exec i s = .next t) :
    s.cfg.wf = true ∧ ((∃ status, refusalOf i s.fsm = some status ∧ t = s.raise status) ∨
      (refusalOf i s.fsm = none ∧ resumeAt i 0 (onStart i s).begin = some t)) := by
  obtain ⟨run, he, hs⟩ := exec_eq_command i s
  obtain ⟨hw, hr | ⟨hr, rfl⟩⟩ := State.command_next.mp (he.symm.trans h)
  · exact ⟨hw, .inl hr⟩
  · exact ⟨hw, .inr ⟨hr, hs⟩⟩

/-- The first check that fails is the response, and nothing else happens (rule R213). -/
theorem exec_refused {i : Instr} {s : State} (hw : s.cfg.wf = true) {status : Status}
    (h : refusalOf i s.fsm = some status) : exec i s = .next (s.raise status) := by
  obtain ⟨run, he, -⟩ := exec_eq_command i s
  rw [he, State.command_refused hw h]

/-- A command that passes its checks runs its action list (rules R27, R213). -/
theorem exec_run {i : Instr} {s : State} (hw : s.cfg.wf = true)
    (h : refusalOf i s.fsm = none) :
    ∃ t, exec i s = .next t ∧ resumeAt i 0 (onStart i s).begin = some t := by
  obtain ⟨run, he, hs⟩ := exec_eq_command i s
  exact ⟨run s, by rw [he, State.command_run hw h], hs⟩

/-- The two tables agree: a command that passes its checks stands where its first action runs. -/
theorem refusalOf_none {i : Instr} {f : Fsm} (h : refusalOf i f = none) :
    runsIn i 0 f = true ∧ operandsOk i = true := by
  cases i <;> cases f <;> simp_all [refusalOf, runsIn, operandsOk]

/-! #### What an action asks for -/

/-- Every request of the block is a claim, a transaction at the claimed address, or a wait (rules
R27, R71). -/
theorem actionRequest_cases {i : Instr} {k : Nat} {s : State} {q : Request}
    (h : actionRequest i k s = some q) :
    (k = 0 ∧ ∃ a, q = .claim a ∧ (i = .openBus a ∨ i = .setup a)) ∨
    (∃ r v, q = .write s.devaddr r v) ∨ (∃ r, q = .read s.devaddr r) ∨
    q = .delay s.cfg.tSettleUs := by
  cases i with
  | openBus a =>
    obtain ⟨hk, ⟨⟩⟩ := Option.ite_none_right_eq_some.mp h
    exact .inl ⟨hk, a, rfl, .inl rfl⟩
  | wrreg r v =>
    obtain ⟨-, ⟨⟩⟩ := Option.ite_none_right_eq_some.mp h
    exact .inr (.inl ⟨_, _, rfl⟩)
  | rdreg r =>
    obtain ⟨-, ⟨⟩⟩ := Option.ite_none_right_eq_some.mp h
    exact .inr (.inr (.inl ⟨_, rfl⟩))
  | reset =>
    obtain ⟨-, ⟨⟩⟩ := Option.ite_none_right_eq_some.mp h
    exact .inr (.inl ⟨_, _, rfl⟩)
  | setup a =>
    simp only [actionRequest, setupRequest] at h
    split at h <;> cases h
    · exact .inl ⟨rfl, a, rfl, .inr rfl⟩
    · exact .inr (.inl ⟨_, _, rfl⟩)
  | setfreq rs f =>
    simp only [actionRequest, setfreqRequest] at h
    split at h
    case h_7 =>
      split at h <;> cases h
      exact .inr (.inl ⟨_, _, rfl⟩)
    all_goals cases h
    · exact .inr (.inr (.inl ⟨_, rfl⟩))
    · exact .inr (.inl ⟨_, _, rfl⟩)
    · exact .inr (.inr (.inr rfl))
    · exact .inr (.inl ⟨_, _, rfl⟩)
    · exact .inr (.inl ⟨_, _, rfl⟩)
    · exact .inr (.inr (.inr rfl))
  | setch ch on off =>
    obtain ⟨-, ⟨⟩⟩ := Option.ite_none_right_eq_some.mp h
    exact .inr (.inl ⟨_, _, rfl⟩)

/-- Only OPEN and SETUP claim, each with its first action. -/
theorem actionRequest_claim {i : Instr} {k : Nat} {s : State} {b : BusAddr}
    (h : actionRequest i k s = some (.claim b)) : k = 0 ∧ (i = .openBus b ∨ i = .setup b) := by
  rcases actionRequest_cases h with ⟨hk, a, ha, hi⟩ | ⟨r, v, ha⟩ | ⟨r, ha⟩ | ha <;> cases ha
  exact ⟨hk, hi⟩

end Sys2Proof.Machine

/-! ### The invariant -/

namespace Sys2Proof.Machine

open Sys2Proof.Statements

/-! #### The claim and the memory after an answer -/

/-- Only a claim that is answered `ok` changes whether the address is held. -/
theorem Env.claimed_of_respond {cfg : Config} {q : Request} {a : Answer} {e e' : Env}
    (hr : e.respond cfg q = (a, e')) (hq : (∀ b, q ≠ .claim b) ∨ ∀ d, a ≠ .ok d) :
    e'.device.claimed = e.device.claimed := by
  by_cases hc : ∀ b, q ≠ .claim b
  · simpa [hr] using Env.respond_claimed cfg hc e
  · obtain ⟨b, rfl⟩ : ∃ b, q = .claim b := by simpa using hc
    rcases Env.respond_claim cfg b e with ⟨d, hd, -⟩ | ⟨-, hk⟩
    · rw [hr] at hd
      exact absurd hd (hq.resolve_left hc d)
    · rwa [hr] at hk

/-- A claim that is answered `ok` is held (rule R39 a). -/
theorem Env.claimed_of_respond_ok {cfg : Config} {b : BusAddr} {d : Byte} {e e' : Env}
    (hr : e.respond cfg (.claim b) = (.ok d, e')) : e'.device.claimed = true := by
  rcases Env.respond_claim cfg b e with ⟨-, -, hc⟩ | ⟨hn, -⟩
  · rwa [hr] at hc
  · rw [hr] at hn; exact absurd rfl (hn d)

/-- The device's memory keeps its form at every answer. -/
theorem Env.wf_of_respond {cfg : Config} {q : Request} {a : Answer} {e e' : Env}
    (hr : e.respond cfg q = (a, e')) (h : e.device.reg.wf) : e'.device.reg.wf := by
  simpa only [hr] using Env.respond_wf cfg q h

/-! #### The invariant through the updates of the state -/

namespace State.Inv

variable {s : State}

/-- A response puts the sequencer at rest, so the rest of the invariant is what is left to show. -/
theorem of_response {status : Status} {data : Byte} (memory : s.env.device.reg.wf)
    (claim : s.env.device.claimed = s.isOpen) (clear : s.fsm ≠ .fatal → s.fatalCode = .ok)
    (cause : s.fsm = .fatal → s.fatalCode = .busOpenFailed ∨ s.fatalCode = .resetFailed)
    (noData : status ≠ .ok → data = 0x00) : (s.respond status data).Inv where
  memory := memory
  claim := claim
  rest _ := rfl
  running h := nomatch h
  fatalCodeClear := clear
  fatalCodeCause := cause
  errorData := noData

theorem raise (h : s.Inv) (status : Status) : (s.raise status).Inv :=
  of_response h.memory h.claim h.fatalCodeClear h.fatalCodeCause fun _ => rfl

theorem complete (h : s.Inv) (data : Byte) : (s.complete data).Inv :=
  of_response h.memory h.claim h.fatalCodeClear h.fatalCodeCause fun hs => absurd rfl hs

/-- While a handle exists the claim is held. -/
theorem held (h : s.Inv) (hf : s.fsm = .opened ∨ s.fsm = .ready) :
    s.env.device.claimed = true := by
  rw [h.claim, State.isOpen]
  rcases hf with hf | hf <;> rw [hf] <;> rfl

/-- While a handle exists no cause of FATAL is saved. -/
theorem noCause (h : s.Inv) (hf : s.fsm = .opened ∨ s.fsm = .ready) : s.fatalCode = .ok :=
  h.fatalCodeClear (by rcases hf with hf | hf <;> simp [hf])

/-- A response in OPENED or READY, with the claim held. -/
theorem respond_handle {f : Fsm} {status : Status} {data : Byte} (memory : s.env.device.reg.wf)
    (held : s.env.device.claimed = true) (clear : s.fatalCode = .ok)
    (hf : f = .opened ∨ f = .ready) (noData : status ≠ .ok → data = 0x00) :
    ({ s with fsm := f }.respond status data).Inv := by
  rcases hf with rfl | rfl
  · exact of_response memory held (fun _ => clear) nofun noData
  · exact of_response memory held (fun _ => clear) nofun noData

/-- The entry to FATAL, with no claim held and a cause rule R219 allows. -/
theorem enterFatal (memory : s.env.device.reg.wf) (released : s.env.device.claimed = false)
    {status : Status} (cause : status = .busOpenFailed ∨ status = .resetFailed) :
    (s.enterFatal status).Inv :=
  of_response memory released (fun h => absurd rfl h) (fun _ => cause) fun _ => rfl

/-- The temporaries do not occur in the invariant (rule R31). -/
theorem temporaries (h : s.Inv) (m p : Byte) : State.Inv { s with oldmode := m, presc := p } :=
  ⟨h.memory, h.claim, h.rest, h.running, h.fatalCodeClear, h.fatalCodeCause, h.errorData⟩

theorem onStart (h : s.Inv) (i : Instr) : (onStart i s).Inv := by
  cases i with
  | setfreq rs f => exact h.temporaries s.oldmode (prescaleByte s.cfg f)
  | openBus _ | wrreg _ _ | rdreg _ | reset | setup _ | setch _ _ _ => exact h

/-- An answer keeps the invariant, unless it grants a claim. -/
theorem answered (h : s.Inv) {q : Request} {a : Answer} {e : Env}
    (hr : s.env.respond s.cfg q = (a, e)) (hq : (∀ b, q ≠ .claim b) ∨ ∀ d, a ≠ .ok d) :
    (s.answered q a e).Inv :=
  ⟨Env.wf_of_respond hr h.memory, (Env.claimed_of_respond hr hq).trans h.claim, h.rest, h.running,
    h.fatalCodeClear, h.fatalCodeCause, h.errorData⟩

/-- Accepting a word between two commands. -/
theorem accept (h : s.Inv) (hb : s.busy = false) (w : Word) (rest : List HostInput) :
    (s.accept w rest).Inv where
  memory := h.memory
  claim := h.claim
  rest := h.rest
  running hb' := by rw [State.accept_busy, hb] at hb'; cases hb'
  fatalCodeClear := h.fatalCodeClear
  fatalCodeCause := h.fatalCodeCause
  errorData := h.errorData

theorem refuseIllegal (h : s.Inv) : s.refuseIllegal.Inv := by
  unfold State.refuseIllegal
  split
  · exact h.raise _
  · exact h.raise _

/-- Waiting lets only the second master act, which takes no claim (rule R84). -/
theorem idle (h : s.Inv) : s.idle.Inv := by
  unfold State.idle
  split
  · next e he =>
    obtain ⟨⟨ts, hd⟩, -, -⟩ := Env.passTime_device he
    have claim : e.device.claimed = s.env.device.claimed := by simp [hd]
    have memory : e.device.reg.wf := hd ▸ Device.foreign_wf s.cfg ts h.memory
    exact ⟨memory, claim.trans h.claim, h.rest, h.running, h.fatalCodeClear, h.fatalCodeCause,
      h.errorData⟩
  · exact h

/-- Hardware reset needs no more than the memory's form: every register takes its reset value. -/
theorem hardwareReset (h : s.env.device.reg.wf) : s.hardwareReset.Inv where
  memory := by
    show s.abandonRequest.device.reg.wf
    unfold State.abandonRequest
    split
    · exact h
    · exact h
    · exact Env.abandonBus_wf _ _ h
  claim := rfl
  rest _ := rfl
  running h := nomatch h
  fatalCodeClear _ := rfl
  fatalCodeCause h := nomatch h
  errorData h := absurd rfl h

end State.Inv

/-! #### The invariant while a command runs -/

theorem actionCount_pos (i : Instr) : 0 < actionCount i := by
  cases i <;> simp only [actionCount] <;> (try split) <;> decide

theorem actionCount_le (i : Instr) : actionCount i ≤ 7 := by
  cases i <;> simp only [actionCount] <;> (try split) <;> decide

/-- The invariant, with the running command `i` at its action `k`. -/
structure State.RunningAt (i : Instr) (k : Nat) (s : State) : Prop where
  inv : s.Inv
  busy : s.busy = true
  command : decode s.cmd = some i
  index : s.step.toNat = k

namespace State.RunningAt

variable {i : Instr} {k : Nat} {s : State}

/-- The command passed its checks, so `fsm` and the operands are what it needs. -/
theorem runs (h : s.RunningAt i k) : runsIn i k s.fsm = true ∧ operandsOk i = true := by
  obtain ⟨i', hi, -, hf, ho⟩ := h.inv.running h.busy
  obtain rfl : i' = i := by simpa [h.command] using hi.symm
  exact ⟨h.index ▸ hf, ho⟩

theorem temporaries (h : s.RunningAt i k) (m p : Byte) :
    State.RunningAt i k { s with oldmode := m, presc := p } :=
  ⟨h.inv.temporaries m p, h.busy, h.command, h.index⟩

/-- A command that passed its checks starts at its first action (rule R27). -/
theorem begin (h : s.Inv) (hd : decode s.cmd = some i) (hr : refusalOf i s.fsm = none) :
    s.begin.RunningAt i 0 := by
  obtain ⟨hf, ho⟩ := refusalOf_none hr
  exact ⟨⟨h.memory, h.claim, nofun, fun _ => ⟨i, hd, actionCount_pos i, hf, ho⟩,
    h.fatalCodeClear, h.fatalCodeCause, h.errorData⟩, rfl, hd, rfl⟩

/-- `step` moves on without a wrap (rule R28). -/
theorem nextIndex (h : s.RunningAt i k) (hk : k + 1 < actionCount i) :
    (s.step + 1).toNat = k + 1 := by
  have := actionCount_le i
  have := h.index
  bv_omega

/-- The next action follows (rule R28). -/
theorem advance (h : s.RunningAt i k) (hk : k + 1 < actionCount i)
    (hf : runsIn i (k + 1) s.fsm = true) : s.advance.RunningAt i (k + 1) := by
  have index := h.nextIndex hk
  refine ⟨⟨h.inv.memory, h.inv.claim, fun hb => ?_, fun _ => ?_, h.inv.fatalCodeClear,
    h.inv.fatalCodeCause, h.inv.errorData⟩, h.busy, h.command, index⟩
  · cases h.busy.symm.trans hb
  · exact ⟨i, h.command, by rwa [State.advance_step, index],
      by rwa [State.advance_step, index], h.runs.2⟩

/-- An answer that grants no claim leaves the command at its action. -/
theorem answered (h : s.RunningAt i k) {q : Request} {a : Answer} {e : Env}
    (hr : s.env.respond s.cfg q = (a, e)) (hq : (∀ b, q ≠ .claim b) ∨ ∀ d, a ≠ .ok d) :
    (s.answered q a e).RunningAt i k :=
  ⟨h.inv.answered hr hq, h.busy, h.command, h.index⟩

/-- So does an `ok` to an action other than the claim of OPEN and SETUP. -/
theorem answeredOk (h : s.RunningAt i k) {q : Request} {d : Byte} {e : Env}
    (hq : actionRequest i k s = some q) (hr : s.env.respond s.cfg q = (.ok d, e))
    (hi : ∀ b, ¬(k = 0 ∧ (i = .openBus b ∨ i = .setup b)) := by simp) :
    (s.answered q (.ok d) e).RunningAt i k :=
  h.answered hr (.inl fun b hb => hi b (actionRequest_claim (hb ▸ hq)))

/-- A failed action keeps the invariant. -/
theorem onFailure (h : s.RunningAt i k) {q : Request} {e : Env}
    (hr : s.env.respond s.cfg q = (.fail, e)) : (onFailure i k (s.answered q .fail e)).Inv := by
  have h := h.answered hr (.inr nofun)
  obtain ⟨runs, -⟩ := h.runs
  cases i with
  | openBus _ | wrreg _ _ | rdreg _ | setch _ _ _ => exact h.inv.raise _
  | reset =>
    have handle : (s.answered q .fail e).fsm = .opened ∨ (s.answered q .fail e).fsm = .ready := by
      simpa [runsIn] using runs
    exact .respond_handle h.inv.memory (h.inv.held handle) (h.inv.noCause handle) (.inl rfl)
      fun _ => rfl
  | setup a =>
    by_cases hk : k = 0
    · subst hk
      have closed : (s.answered q .fail e).fsm = .closed := by simpa [runsIn] using runs
      exact .enterFatal h.inv.memory (by rw [h.inv.claim, State.isOpen, closed]; rfl) (.inl rfl)
    · rw [onFailure_setup_reset hk]
      exact .enterFatal (s := State.releaseHandle _) h.inv.memory rfl (.inr rfl)
  | setfreq rs f =>
    simp only [Machine.onFailure]
    split
    · exact h.inv.raise _
    · exact h.inv
    · exact h.inv
    · exact h.inv.raise _

/-- The last action keeps the invariant. -/
theorem onLast (h : s.RunningAt i k) {q : Request} {d : Byte} {e : Env}
    (hq : actionRequest i k s = some q) (hr : s.env.respond s.cfg q = (.ok d, e))
    (hk : k + 1 = actionCount i) :
    ((onSuccess i k d (s.answered q (.ok d) e)).complete (responseData i d)).Inv := by
  obtain ⟨runs, -⟩ := h.runs
  cases i with
  | openBus a =>
    obtain ⟨rfl, ⟨⟩⟩ := Option.ite_none_right_eq_some.mp hq
    have clear : s.fatalCode = .ok := h.inv.fatalCodeClear (by simp_all [runsIn])
    exact .respond_handle (s := { s.answered _ _ e with devaddr := a })
      (Env.wf_of_respond hr h.inv.memory) (Env.claimed_of_respond_ok hr) clear (.inl rfl)
      fun hs => absurd rfl hs
  | reset =>
    have h := h.answeredOk hq hr
    have handle : s.fsm = .opened ∨ s.fsm = .ready := by simpa [runsIn] using runs
    exact .respond_handle h.inv.memory (h.inv.held handle) (h.inv.noCause handle) (.inr rfl)
      fun hs => absurd rfl hs
  | setup a =>
    obtain rfl : k = 1 := by simpa [actionCount] using hk
    have h := h.answeredOk hq hr
    have opened : s.fsm = .opened := by simpa [runsIn] using runs
    exact .respond_handle h.inv.memory (h.inv.held (.inl opened)) (h.inv.noCause (.inl opened))
      (.inr rfl) fun hs => absurd rfl hs
  | setfreq rs f =>
    have h := h.answeredOk hq hr
    simp only [onSuccess]
    split
    · exact (h.inv.temporaries _ _).complete _
    · exact h.inv.complete _
  | wrreg _ _ | rdreg _ | setch _ _ _ =>
    have h := h.answeredOk hq hr
    exact h.inv.complete _

/-- An action that is not the last one leaves the command at the next. -/
theorem onNext (h : s.RunningAt i k) {q : Request} {d : Byte} {e : Env}
    (hq : actionRequest i k s = some q) (hr : s.env.respond s.cfg q = (.ok d, e))
    (hk : k + 1 < actionCount i) :
    (onSuccess i k d (s.answered q (.ok d) e)).advance.RunningAt i (k + 1) := by
  obtain ⟨runs, -⟩ := h.runs
  cases i with
  | openBus _ | wrreg _ _ | rdreg _ | reset => exact absurd hk (by simp [actionCount])
  | setup a =>
    obtain rfl : k = 0 := by simpa [actionCount] using hk
    obtain ⟨⟩ := hq
    have clear : s.fatalCode = .ok := h.inv.fatalCodeClear (by simp_all [runsIn])
    have index := h.nextIndex hk
    refine ⟨⟨Env.wf_of_respond hr h.inv.memory, Env.claimed_of_respond_ok hr, fun hb => ?_,
      fun _ => ⟨_, h.command, index.trans_lt hk, ?_, rfl⟩, fun _ => clear, nofun,
      h.inv.errorData⟩, h.busy, h.command, index⟩
    · cases h.busy.symm.trans hb
    · show runsIn (.setup a) (s.step + 1).toNat .opened = true
      rw [index]; rfl
  | setfreq rs f =>
    have h := h.answeredOk hq hr
    simp only [onSuccess]
    split
    · exact (h.temporaries d s.presc).advance hk runs
    · exact h.advance hk runs
  | setch ch on off =>
    have h := h.answeredOk hq hr
    exact h.advance hk runs

/-- The rest of the action list keeps the invariant. -/
theorem resumeAt {t : State} (h : s.RunningAt i k) (he : resumeAt i k s = some t) : t.Inv :=
  resumeAt_induction (P := State.RunningAt i)
    (fun _ _ _ _ h _ hr => (h.answered hr (.inr nofun)).inv)
    (fun _ _ _ _ h _ hr => h.onFailure hr)
    (fun _ _ _ _ _ h hq hr hk => h.onLast hq hr hk)
    (fun _ _ _ _ _ h hq hr hk => h.onNext hq hr hk) h he

end State.RunningAt

/-! #### The invariant through commands and steps -/

/-- The command in `cmd` keeps the invariant. -/
theorem State.Inv.exec {i : Instr} {s t : State} (h : s.Inv) (hd : decode s.cmd = some i)
    (he : exec i s = .next t) : t.Inv := by
  obtain ⟨-, ⟨status, -, rfl⟩ | ⟨hn, hs⟩⟩ := exec_cases he
  · exact h.raise status
  · exact (RunningAt.begin (h.onStart i) (by simpa) (by simpa)).resumeAt hs

/-- A waiting command keeps the invariant. -/
theorem State.Inv.resume {s t : State} (h : s.Inv) (hb : s.busy = true)
    (he : resume s = .next t) : t.Inv := by
  obtain ⟨i, hd, hi⟩ := resume_next he
  exact RunningAt.resumeAt ⟨h, hb, hd, rfl⟩ hi

/-- Settles O39: each of the things a step can do keeps the invariant. -/
theorem everyStepKeepsTheInvariant : Obligations.EveryStepKeepsTheInvariant := by
  intro s t h ht
  obtain ⟨-, ⟨rest, -, rfl⟩ | ⟨hb, -, hr⟩ | ⟨hb, w, rest, -, ⟨i, hd, he⟩ | ⟨-, rfl⟩⟩ |
    ⟨-, -, rfl⟩⟩ := step_cases ht
  · exact .hardwareReset h.memory
  · exact h.resume hb hr
  · exact (h.accept hb w rest).exec hd he
  · exact (h.accept hb w rest).refuseIllegal
  · exact h.idle

end Sys2Proof.Machine

/-! ### The configuration -/

namespace Sys2Proof

/-- A mask with exactly one bit set is a power of two; all 256 bytes are looked at. -/
theorem oneBitSet_iff (m : Byte) : oneBitSet m = true ↔ ∃ k < 8, m = 1 <<< k := by
  revert m; decide

/-- Rule R8, condition by condition. -/
theorem Config.wf_iff (c : Config) : c.wf = true ↔
    0 < c.oscClockHz ∧ 500 ≤ c.tSettleUs ∧
    c.prescaleMin.toNat ≤ c.prescaleMax.toNat ∧ c.prescaleMax.toNat ≤ 0xFF ∧
    (∃ k < 8, c.sleepMask = 1 <<< k) ∧ (∃ k < 8, c.restartMask = 1 <<< k) ∧
    c.sleepMask ≠ c.restartMask ∧ c.chBaseAddr.toNat + 4 * 16 - 1 ≤ 0xFF ∧
    [c.mode1Addr, c.mode2Addr, c.prescaleAddr].Nodup ∧
    ∀ r ∈ [c.mode1Addr, c.mode2Addr, c.prescaleAddr],
      r.toNat < c.chBaseAddr.toNat ∨ c.chBaseAddr.toNat + 63 < r.toNat := by
  have byte : c.prescaleMax.toNat ≤ 0xFF := Nat.le_of_lt_succ c.prescaleMax.isLt
  have outside (r : RegAddr) : c.inChannelBlock r = false ↔
      r.toNat < c.chBaseAddr.toNat ∨ c.chBaseAddr.toNat + 63 < r.toNat := by
    simp only [Config.inChannelBlock, Bool.and_eq_false_iff, decide_eq_false_iff_not, not_le]
  have distinct : [c.mode1Addr, c.mode2Addr, c.prescaleAddr].Nodup ↔
      (c.mode1Addr ≠ c.mode2Addr ∧ c.mode1Addr ≠ c.prescaleAddr) ∧
        c.mode2Addr ≠ c.prescaleAddr := by
    simp
  rw [distinct]
  simp only [Config.wf, Config.oscOk, Config.settleOk, Config.prescaleRangeOk, Config.masksOk,
    Config.channelBlockOk, Config.namedDistinct, Config.namedOutsideChannels, Bool.and_eq_true,
    decide_eq_true_eq, oneBitSet_iff, bne_iff_ne, Bool.not_eq_true', outside, List.forall_mem_cons]
  constructor
  · rintro ⟨⟨⟨⟨⟨⟨osc, settle⟩, range⟩, ⟨sleep, restart⟩, differ⟩, block⟩, named⟩, ⟨o1, o2⟩, o3⟩
    exact ⟨osc, settle, range, byte, sleep, restart, differ, block, named, o1, o2, o3, nofun⟩
  · rintro ⟨osc, settle, range, -, sleep, restart, differ, block, named, o1, o2, o3, -⟩
    exact ⟨⟨⟨⟨⟨⟨osc, settle⟩, range⟩, ⟨sleep, restart⟩, differ⟩, block⟩, named⟩, ⟨o1, o2⟩, o3⟩

end Sys2Proof

namespace Sys2Proof.Machine

open Sys2Proof.Statements

/-- An ill-formed configuration gives no command a meaning (rule R8). -/
theorem exec_illFormed {s : State} (hw : s.cfg.wf = false) (i : Instr) :
    exec i s = .refused .illFormedConfig := by
  obtain ⟨run, he, -⟩ := exec_eq_command i s
  simp [he, State.command, hw]

/-- Settles O13: the conditions of rule R8 one by one, and the refusal. -/
theorem illFormedConfigurationIsRefused : Obligations.IllFormedConfigurationIsRefused := by
  refine ⟨Config.wf_iff, by decide, fun s hw => ⟨?_, exec_illFormed hw⟩⟩
  simp [step, hw]

/-- Settles O52: no update a command is made of touches the configuration, nor does a hardware
reset, a refusal or a wait. -/
theorem noStepChangesTheConfiguration : Obligations.NoStepChangesTheConfiguration := by
  intro s t ht
  obtain ⟨-, ⟨rest, -, rfl⟩ | ⟨-, -, hr⟩ | ⟨-, w, rest, -, ⟨i, -, he⟩ | ⟨-, rfl⟩⟩ |
    ⟨-, -, rfl⟩⟩ := step_cases ht
  · rfl
  · exact (resume_untouched hr).1
  · exact (exec_untouched he).1
  · unfold State.refuseIllegal; split <;> rfl
  · unfold State.idle; split <;> rfl

/-! ### Channel addresses -/

/-- The address of a channel register does not wrap (rule R69). -/
theorem channelAddr_toNat {cfg : Config} (hw : cfg.wf = true) {ch : Byte} (hc : ch.toNat ≤ 15)
    {k : Nat} (hk : k < 4) :
    (channelAddr cfg ch k).toNat = cfg.chBaseAddr.toNat + 4 * ch.toNat + k := by
  obtain ⟨-, -, -, -, -, -, -, block, -⟩ := (Config.wf_iff cfg).mp hw
  rw [channelAddr, BitVec.toNat_ofNat, channelAddrNat, Nat.mod_eq_of_lt]
  show cfg.chBaseAddr.toNat + 4 * ch.toNat + k < 256
  omega

/-- A channel register lies in the channel block (rule R37). -/
theorem channelAddr_inChannelBlock {cfg : Config} (hw : cfg.wf = true) {ch : Byte}
    (hc : ch.toNat ≤ 15) {k : Nat} (hk : k < 4) :
    cfg.inChannelBlock (channelAddr cfg ch k) = true := by
  simp only [Config.inChannelBlock, channelAddr_toNat hw hc hk, Bool.and_eq_true,
    decide_eq_true_eq]
  omega

/-- PRESCALE is no channel register (rule R8). -/
theorem channelAddr_ne_prescale {cfg : Config} (hw : cfg.wf = true) {ch : Byte}
    (hc : ch.toNat ≤ 15) {k : Nat} (hk : k < 4) : channelAddr cfg ch k ≠ cfg.prescaleAddr := by
  intro h
  obtain ⟨-, -, -, -, -, -, -, -, -, outside⟩ := (Config.wf_iff cfg).mp hw
  have := outside cfg.prescaleAddr (by simp)
  have := channelAddr_toNat hw hc hk
  rw [h] at this
  omega

/-- Settles O56: four registers to a channel, so the address determines both numbers. -/
theorem channelAddressesDoNotWrap : Obligations.ChannelAddressesDoNotWrap := by
  intro cfg ch ch' k k' hw hc hc' hk hk'
  have addr := channelAddr_toNat hw hc hk
  have addr' := channelAddr_toNat hw hc' hk'
  refine ⟨addr, channelAddr_inChannelBlock hw hc hk, fun h => ?_⟩
  rw [h] at addr
  exact ⟨BitVec.eq_of_toNat_eq (by omega), by omega⟩

/-! ### The reference device alone -/

/-- Without a script and a second master a request gets the reference device's answer (rule R81). -/
theorem Env.respond_reference {cfg : Config} {e : Env} (ht : e.turns = [])
    (ha : e.answering = .referenceDevice) (hx : cfg.externalMaster = false) (q : Request) :
    ((e.respond cfg q).1, (e.respond cfg q).2.device) =
      e.device.answer cfg (Config.freeByte e.drawn) q := by
  cases q with
  | delay t => simp [Env.respond, Env.respondDelay, Env.passTime, ht, Device.answer]
  | claim _ | write _ _ _ | read _ _ =>
    simp [Env.respond, Env.respondBus, Env.nextTurn, ht, ha, Device.takeTurn, hx]

/-- Only a write changes a register of the reference device or its violated flag (rule R81). -/
theorem Device.answer_stores_nothing (cfg : Config) (draw : Byte) {q : Request}
    (hq : ∀ a r v, q ≠ .write a r v) (d : Device) :
    (d.answer cfg draw q).2.reg = d.reg ∧ (d.answer cfg draw q).2.violated = d.violated := by
  cases q with
  | write a r v => exact absurd rfl (hq a r v)
  | claim a => simp only [Device.answer]; split <;> exact ⟨rfl, rfl⟩
  | read a r => simp only [Device.answer]; split <;> exact ⟨rfl, rfl⟩
  | delay t => exact ⟨rfl, rfl⟩

/-- The one action of OPEN and of RDREG ends with the environment its answer left. -/
theorem env_of_open_or_read {i : Instr} {s t : State}
    (hi : (∃ a, i = .openBus a) ∨ ∃ r, i = .rdreg r) (h : resumeAt i 0 s = some t) :
    ∃ q, (∀ a r v, q ≠ .write a r v) ∧ t.env = (s.env.respond s.cfg q).2 := by
  obtain ⟨q, hq, ho⟩ := resumeAt_outcome h
  refine ⟨q, ?_, ?_⟩
  · rcases hi with ⟨a, rfl⟩ | ⟨r, rfl⟩ <;> cases hq <;> exact fun _ _ _ h => nomatch h
  · rcases hi with ⟨a, rfl⟩ | ⟨r, rfl⟩ <;> cases ho with
    | waits e hr ht | fails e hr ht => rw [hr, ht]; rfl
    | completes d e hr hk ht => rw [hr, ht]; rfl
    | continues d e hr hk ht => exact absurd hk (by simp [actionCount])

/-- Settles O29: a refused command asks for nothing, and a claim and a read store nothing. -/
theorem commandsThatStoreNothingKeepTheDevice :
    Obligations.CommandsThatStoreNothingKeepTheDevice := by
  intro i s hw ht ha hx hi
  cases hr : refusalOf i s.fsm with
  | some status => exact ⟨_, exec_refused hw hr, rfl, rfl⟩
  | none =>
    obtain ⟨t, he, hs⟩ := exec_run hw hr
    have hi : (∃ a, i = .openBus a) ∨ ∃ r, i = .rdreg r := by simpa [hr] using hi
    obtain ⟨q, hq, henv⟩ := env_of_open_or_read hi hs
    rw [State.begin_env, State.begin_cfg, onStart_env, onStart_cfg] at henv
    have device := congrArg Prod.snd (Env.respond_reference ht ha hx q)
    have kept := Device.answer_stores_nothing s.cfg (Config.freeByte s.env.drawn) hq s.env.device
    rw [← device, ← henv] at kept
    exact ⟨t, he, kept⟩

/-! ### The events of a step -/

/-- The requests of a list end with its last action. -/
theorem actionRequest_lt {i : Instr} {k : Nat} {s : State} {q : Request}
    (h : actionRequest i k s = some q) : k < actionCount i := by
  cases i with
  | openBus _ | wrreg _ _ | rdreg _ | reset =>
    obtain ⟨rfl, -⟩ := Option.ite_none_right_eq_some.mp h
    exact Nat.one_pos
  | setup a =>
    simp only [actionRequest, setupRequest] at h
    split at h <;> simp_all [actionCount]
  | setfreq rs f =>
    simp only [actionRequest, setfreqRequest] at h
    split at h <;> cases rs <;> simp_all [actionCount]
  | setch ch on off => exact (Option.ite_none_right_eq_some.mp h).1

/-- A request leaves at most one event (rule R13). -/
theorem Request.event_length_le (q : Request) (a : Answer) : (q.event a).length ≤ 1 := by
  cases q <;> cases a <;> simp [Request.event]

/-- Every transaction goes to `devaddr`, and every wait lasts T_SETTLE_US (rules R25, R222). -/
theorem actionRequest_event {i : Instr} {k : Nat} {s : State} {q : Request}
    (h : actionRequest i k s = some q) {a : Answer} {ev : Event} (hev : ev ∈ q.event a) :
    (∀ b, eventAddress ev = some b → b = s.devaddr) ∧
      ∀ us, ev = .delay us → us = s.cfg.tSettleUs := by
  rcases actionRequest_cases h with ⟨-, b, rfl, -⟩ | ⟨r, v, rfl⟩ | ⟨r, rfl⟩ | rfl
  · cases a <;> simp_all [Request.event, eventAddress]
  · cases a <;> simp_all [Request.event, eventAddress]
  · cases a <;> simp_all [Request.event, eventAddress]
  · cases a <;> simp_all [Request.event, eventAddress]

/-- Only a granted claim, the first action of OPEN and SETUP, writes `devaddr` (rule R25). -/
theorem onSuccess_devaddr {i : Instr} {k : Nat} {s : State} {q : Request}
    (h : actionRequest i k s = some q) :
    (∀ d s', (onSuccess i k d s').devaddr = s'.devaddr) ∨
      (k = 0 ∧ ∃ b, q = .claim b ∧ ∀ d s', (onSuccess i k d s').devaddr = b) := by
  cases i with
  | openBus a =>
    obtain ⟨hk, ⟨⟩⟩ := Option.ite_none_right_eq_some.mp h
    exact .inr ⟨hk, a, rfl, fun _ _ => rfl⟩
  | setup a =>
    by_cases hk : k = 0
    · subst hk; cases h
      exact .inr ⟨rfl, a, rfl, fun _ _ => rfl⟩
    · exact .inl fun _ _ => by simp [onSuccess, hk]
  | setfreq rs f => exact .inl fun _ _ => by simp only [onSuccess]; split <;> rfl
  | wrreg _ _ | rdreg _ | reset | setch _ _ _ => exact .inl fun _ _ => rfl

@[simp] theorem onSuccess_cfg (i : Instr) (k : Nat) (d : Byte) (s : State) :
    (onSuccess i k d s).cfg = s.cfg := by
  cases i <;> simp only [onSuccess] <;> (try split) <;> rfl

@[simp] theorem onSuccess_trace (i : Instr) (k : Nat) (d : Byte) (s : State) :
    (onSuccess i k d s).trace = s.trace := by
  cases i <;> simp only [onSuccess] <;> (try split) <;> rfl

/-- A failure leaves the configuration and `devaddr`, and no event but SETUP's release (rule
R156). -/
theorem onFailure_frame (i : Instr) (k : Nat) (s : State) :
    (onFailure i k s).cfg = s.cfg ∧ (onFailure i k s).devaddr = s.devaddr ∧
      ((onFailure i k s).trace = s.trace ∨
        (∃ a, i = .setup a) ∧ (onFailure i k s).trace = s.trace ++ [Event.release s.devaddr]) := by
  cases i with
  | openBus _ | wrreg _ _ | rdreg _ | reset | setch _ _ _ => exact ⟨rfl, rfl, .inl rfl⟩
  | setup a =>
    by_cases hk : k = 0
    · subst hk; exact ⟨rfl, rfl, .inl rfl⟩
    · rw [onFailure_setup_reset hk]; exact ⟨rfl, rfl, .inr ⟨⟨a, rfl⟩, by simp⟩⟩
  | setfreq rs f => simp only [onFailure]; split <;> exact ⟨rfl, rfl, .inl rfl⟩

/-- From `s₀` to `s` the trace grew by the events `evs`, every transaction and release of which goes
to `devaddr`, and every wait of which lasts T_SETTLE_US. -/
structure GrewBy (s₀ s : State) (evs : List Event) : Prop where
  cfg : s.cfg = s₀.cfg
  trace : s.trace = s₀.trace ++ evs
  address : ∀ ev ∈ evs, ∀ a, eventAddress ev = some a → a = s.devaddr
  wait : ∀ us, Event.delay us ∈ evs → us = s₀.cfg.tSettleUs

namespace GrewBy

variable {s₀ s s' : State} {evs : List Event}

theorem nil (cfg : s.cfg = s₀.cfg) (trace : s.trace = s₀.trace) : GrewBy s₀ s [] :=
  ⟨cfg, by rw [trace, List.append_nil], by simp, by simp⟩

/-- Only `cfg`, `trace` and `devaddr` matter. -/
theorem congr (h : GrewBy s₀ s evs) (cfg : s'.cfg = s.cfg) (trace : s'.trace = s.trace)
    (devaddr : s'.devaddr = s.devaddr) : GrewBy s₀ s' evs :=
  ⟨cfg.trans h.cfg, trace.trans h.trace, fun ev hev a ha => devaddr ▸ h.address ev hev a ha, h.wait⟩

/-- More events, each to `devaddr` or a wait of T_SETTLE_US. -/
theorem append (h : GrewBy s₀ s evs) {more : List Event} (cfg : s'.cfg = s.cfg)
    (trace : s'.trace = s.trace ++ more) (devaddr : s'.devaddr = s.devaddr)
    (hm : ∀ ev ∈ more, (∀ b, eventAddress ev = some b → b = s.devaddr) ∧
      ∀ us, ev = .delay us → us = s.cfg.tSettleUs) : GrewBy s₀ s' (evs ++ more) where
  cfg := cfg.trans h.cfg
  trace := by rw [trace, h.trace, List.append_assoc]
  address ev hev a ha := by
    rw [devaddr]
    rcases List.mem_append.mp hev with hev | hev
    · exact h.address ev hev a ha
    · exact (hm ev hev).1 a ha
  wait us hus := by
    rcases List.mem_append.mp hus with hus | hus
    · exact h.wait us hus
    · rw [← h.cfg]; exact (hm _ hus).2 us rfl

variable {i : Instr} {k : Nat} {q : Request}

theorem answered (h : GrewBy s₀ s evs) (hq : actionRequest i k s = some q) (a : Answer) (e : Env) :
    GrewBy s₀ (s.answered q a e) (evs ++ q.event a) :=
  h.append rfl rfl rfl fun _ => actionRequest_event hq

/-- A success may write `devaddr`, but then nothing came before it. -/
theorem onSuccess (h : GrewBy s₀ s evs) (hl : evs.length ≤ k) (hq : actionRequest i k s = some q)
    (d : Byte) (e : Env) :
    GrewBy s₀ (onSuccess i k d (s.answered q (.ok d) e)) (evs ++ q.event (.ok d)) := by
  rcases onSuccess_devaddr hq with hd | ⟨rfl, b, rfl, -⟩
  · exact (h.answered hq _ e).congr (onSuccess_cfg ..) (onSuccess_trace ..) (hd ..)
  · obtain rfl := List.length_eq_zero_iff.mp (Nat.le_zero.mp hl)
    refine ⟨(onSuccess_cfg ..).trans h.cfg, ?_, by simp [Request.event, eventAddress],
      by simp [Request.event]⟩
    rw [onSuccess_trace]
    exact (h.answered hq _ e).trace

/-- A failure may add the release of SETUP. -/
theorem onFailure (h : GrewBy s₀ s evs) (hl : evs.length ≤ k) (hq : actionRequest i k s = some q)
    (e : Env) :
    ∃ evs', GrewBy s₀ (onFailure i k (s.answered q .fail e)) evs' ∧ evs'.length ≤ 7 := by
  have hk := actionRequest_lt hq
  have one := q.event_length_le .fail
  have grew := h.answered hq .fail e
  obtain ⟨hc, hd, ht | ⟨⟨a, rfl⟩, ht⟩⟩ := onFailure_frame i k (s.answered q .fail e)
  · refine ⟨_, grew.congr hc ht hd, ?_⟩
    have := actionCount_le i
    rw [List.length_append]
    omega
  · refine ⟨_, grew.append hc ht hd (by simp [eventAddress]), ?_⟩
    simp only [actionCount] at hk
    simp only [List.length_append, List.length_singleton]
    omega

/-- The rest of an action list adds at most one event an action, and the release. -/
theorem resumeAt {t : State} (h : GrewBy s₀ s []) (he : resumeAt i k s = some t) :
    ∃ evs, GrewBy s₀ t evs ∧ evs.length ≤ 7 := by
  refine resumeAt_induction (Q := fun t => ∃ evs, GrewBy s₀ t evs ∧ evs.length ≤ 7)
    (P := fun k s => ∃ evs, GrewBy s₀ s evs ∧ evs.length ≤ k) ?_ ?_ ?_ ?_
    ⟨[], h, Nat.zero_le k⟩ he
  · rintro k s q e ⟨evs, h, hl⟩ hq -
    refine ⟨_, h.answered hq .pending e, ?_⟩
    have := actionRequest_lt hq
    have := actionCount_le i
    rw [Request.event_pending, List.append_nil]
    omega
  · rintro k s q e ⟨evs, h, hl⟩ hq -
    exact h.onFailure hl hq e
  · rintro k s q d e ⟨evs, h, hl⟩ hq - hk
    refine ⟨_, (h.onSuccess hl hq d e).congr rfl rfl rfl, ?_⟩
    have := q.event_length_le (.ok d)
    have := actionCount_le i
    rw [List.length_append]
    omega
  · rintro k s q d e ⟨evs, h, hl⟩ hq - -
    refine ⟨_, (h.onSuccess hl hq d e).congr rfl rfl rfl, ?_⟩
    have := q.event_length_le (.ok d)
    rw [List.length_append]
    omega

theorem exec {t : State} (h : GrewBy s₀ s []) (he : exec i s = .next t) :
    ∃ evs, GrewBy s₀ t evs ∧ evs.length ≤ 7 := by
  obtain ⟨-, ⟨status, -, rfl⟩ | ⟨-, hs⟩⟩ := exec_cases he
  · exact ⟨[], h.congr rfl rfl rfl, Nat.zero_le 7⟩
  · exact (h.congr (by simp) (by simp) (by simp)).resumeAt hs

theorem step {t : State} (ht : step s = .next t) : ∃ evs, GrewBy s t evs ∧ evs.length ≤ 7 := by
  obtain ⟨-, ⟨rest, -, rfl⟩ | ⟨-, -, hr⟩ | ⟨-, w, rest, -, ⟨i, -, he⟩ | ⟨-, rfl⟩⟩ |
    ⟨-, -, rfl⟩⟩ := step_cases ht
  · exact ⟨[], nil rfl rfl, Nat.zero_le 7⟩
  · obtain ⟨i, -, hi⟩ := resume_next hr
    exact (nil rfl rfl).resumeAt hi
  · exact exec (s := s.accept w rest) (nil rfl rfl) he
  · refine ⟨[], nil ?_ ?_, Nat.zero_le 7⟩ <;> unfold State.refuseIllegal <;> split <;> rfl
  · refine ⟨[], nil ?_ ?_, Nat.zero_le 7⟩ <;> unfold State.idle <;> split <;> rfl

end GrewBy

/-- Settles O47: one event an action, at most seven actions, and the settle time of a well-formed
configuration. -/
theorem eventsOfAStep : Obligations.EventsOfAStep := by
  intro s t h
  have hw : s.cfg.wf = true := by
    rcases h with h | ⟨i, h⟩
    · exact (step_cases h).1
    · exact (exec_cases h).1
  obtain ⟨evs, grew, hl⟩ : ∃ evs, GrewBy s t evs ∧ evs.length ≤ 7 := by
    rcases h with h | ⟨i, h⟩
    · exact GrewBy.step h
    · exact (GrewBy.nil rfl rfl).exec h
  obtain ⟨-, settle, -⟩ := (Config.wf_iff s.cfg).mp hw
  have added : addedEvents s t = evs := by rw [addedEvents, grew.trace, List.drop_left]
  rw [added]
  exact ⟨⟨evs, grew.trace.symm⟩, hl, grew.address, fun us hus => grew.wait us hus ▸ settle⟩

/-! ### Failed transactions -/

theorem Device.freeFail_nil (cfg : Config) (q : Request) (d : Device) :
    d.freeFail cfg q [] = d := by
  cases q with
  | claim _ | delay _ => rfl
  | read a r => simp [Device.freeFail, memChanges]
  | write a r v => simp [Device.freeFail, memChanges, changesOf]

/-- A failed transaction at another bus address leaves the device untouched (rule R60). -/
theorem Device.freeFail_elsewhere {cfg : Config} {a : BusAddr} (ha : a ≠ cfg.deviceAddr)
    {q : Request} (hq : (∃ r, q = .read a r) ∨ ∃ r v, q = .write a r v) (cs : List CellChange)
    (d : Device) : d.freeFail cfg q cs = d := by
  rcases hq with ⟨r, rfl⟩ | ⟨r, v, rfl⟩ <;> simp [Device.freeFail, ha]

/-- The reference device fails without a change (rule R81). -/
theorem Device.answer_fail {cfg : Config} {draw : Byte} {q : Request} {d d' : Device}
    (h : d.answer cfg draw q = (.fail, d')) : d' = d := by
  cases q with
  | delay t => cases h
  | claim _ | write _ _ _ | read _ _ =>
    simp only [Device.answer] at h
    split at h <;> cases h
    rfl

/-- Without a second master a failed request changes the device as a free `fail` does. -/
theorem Env.device_of_fail {cfg : Config} (hx : cfg.externalMaster = false) {q : Request}
    {e e' : Env} (hr : e.respond cfg q = (.fail, e')) :
    ∃ cs, e'.device = e.device.freeFail cfg q cs := by
  cases q with
  | delay t =>
    simp only [Env.respond, Env.respondDelay] at hr
    split at hr <;> cases hr
  | claim _ | write _ _ _ | read _ _ =>
    obtain ⟨hf, rfl⟩ := Prod.ext_iff.mp hr
    simp only [Env.respond, Env.respondBus, Device.takeTurn, Device.foreign_alone hx] at hf ⊢
    split at hf
    · cases hf
    · exact ⟨[], by rw [Device.freeFail_nil]; exact Device.answer_fail (Prod.ext hf rfl)⟩
    · cases hf
    · next cs _ => exact ⟨cs, rfl⟩

/-- Without a second master an `ok` write stores its byte in a register the spec describes, but for
PRESCALE, which depends on sleep mode (rule R36). -/
theorem Env.device_of_stored {cfg : Config} (hx : cfg.externalMaster = false) {r : RegAddr}
    (hd : describedReg cfg r = true) (hp : r ≠ cfg.prescaleAddr) {v d : Byte} {e e' : Env}
    (hr : e.respond cfg (.write cfg.deviceAddr r v) = (.ok d, e')) :
    e'.device.reg = memSet e.device.reg r.toNat v := by
  obtain ⟨hk, rfl⟩ := Prod.ext_iff.mp hr
  simp only [Env.respond, Env.respondBus, Device.takeTurn, Device.foreign_alone hx] at hk ⊢
  split at hk
  · cases hk
  · simp [Device.answer, Device.store, hp]
  · simp [Device.freeOk, Device.freeStore, hd, hp]
  · cases hk

/-- A channel register holds the byte written to it (rule R37). -/
theorem describedReg_channelAddr {cfg : Config} (hw : cfg.wf = true) {ch : Byte}
    (hc : ch.toNat ≤ 15) {k : Nat} (hk : k < 4) :
    describedReg cfg (channelAddr cfg ch k) = true := by
  simp [describedReg, channelAddr_inChannelBlock hw hc hk]

/-- SETCH after `k` successful writes: the events, the bytes, and the registers not written. -/
structure SetchProgress (s₀ : State) (ch : Byte) (on off : Tick) (k : Nat) (s : State) : Prop where
  cfg : s.cfg = s₀.cfg
  devaddr : s.devaddr = s₀.devaddr
  busy : s.busy = true
  trace : s.trace = s₀.trace ++ (List.range k).map fun j =>
    Event.write s₀.devaddr (channelAddr s₀.cfg ch j) (channelByte on off j) true
  written : ∀ j < k, memGet s.env.device.reg (s₀.cfg.chBaseAddr.toNat + 4 * ch.toNat + j) =
    some (channelByte on off j)
  others : ∀ x, (∀ j < k, x ≠ s₀.cfg.chBaseAddr.toNat + 4 * ch.toNat + j) →
    memGet s.env.device.reg x = memGet s₀.env.device.reg x

/-- What a SETCH that failed at action `k` leaves (rule R182). -/
structure SetchFailedAt (s₀ : State) (ch : Byte) (on off : Tick) (k : Nat) (t : State) : Prop where
  status : t.respStatus = .busWriteFailed
  trace : t.trace = s₀.trace ++
    ((List.range k).map fun j =>
      Event.write s₀.devaddr (channelAddr s₀.cfg ch j) (channelByte on off j) true) ++
    [Event.write s₀.devaddr (channelAddr s₀.cfg ch k) (channelByte on off k) false]
  written : ∀ j < k, memGet t.env.device.reg (s₀.cfg.chBaseAddr.toNat + 4 * ch.toNat + j) =
    some (channelByte on off j)
  others : ∀ x, (∀ j ≤ k, x ≠ s₀.cfg.chBaseAddr.toNat + 4 * ch.toNat + j) →
    memGet t.env.device.reg x = memGet s₀.env.device.reg x

namespace SetchProgress

variable {s₀ s : State} {ch : Byte} {on off : Tick} {k : Nat} {q : Request} {e : Env}

theorem start : SetchProgress s₀ ch on off 0 s₀.begin :=
  ⟨rfl, rfl, rfl, by simp, by simp, fun _ _ => rfl⟩

variable (hw : s₀.cfg.wf = true) (hx : s₀.cfg.externalMaster = false) (hc : ch.toNat ≤ 15)
include hw hx hc

/-- A failing write changes its own register only. -/
theorem fail (h : SetchProgress s₀ ch on off k s)
    (hq : actionRequest (.setch ch on off) k s = some q)
    (hr : s.env.respond s.cfg q = (.fail, e)) :
    k < 4 ∧
      SetchFailedAt s₀ ch on off k (onFailure (.setch ch on off) k (s.answered q .fail e)) := by
  obtain ⟨hk, ⟨⟩⟩ := Option.ite_none_right_eq_some.mp hq
  rw [channelWrite, h.cfg] at hr
  obtain ⟨cs, hd⟩ := Env.device_of_fail hx hr
  have addr := channelAddr_toNat hw hc hk
  have other {x : Nat} (hx : x ≠ s₀.cfg.chBaseAddr.toNat + 4 * ch.toNat + k) :
      memGet e.device.reg x = memGet s.env.device.reg x := by
    rw [hd]
    exact Device.freeFail_other (describedReg_channelAddr hw hc hk) (by rwa [addr]) ..
  refine ⟨hk, ⟨rfl, ?_, fun j hj => ?_, fun x hx => ?_⟩⟩
  · show s.trace ++ [Event.write s.devaddr (channelAddr s.cfg ch k) _ false] = _
    rw [h.trace, h.cfg, h.devaddr]
  · exact (other (by omega)).trans (h.written j hj)
  · exact (other (hx k le_rfl)).trans (h.others x fun j hj => hx j hj.le)

/-- An `ok` write adds its event and its byte. -/
theorem next (ha : s₀.devaddr = s₀.cfg.deviceAddr) (h : SetchProgress s₀ ch on off k s)
    (hq : actionRequest (.setch ch on off) k s = some q) {d : Byte}
    (hr : s.env.respond s.cfg q = (.ok d, e)) :
    SetchProgress s₀ ch on off (k + 1) (s.answered q (.ok d) e).advance := by
  obtain ⟨hk, ⟨⟩⟩ := Option.ite_none_right_eq_some.mp hq
  rw [channelWrite, h.cfg, h.devaddr, ha] at hr
  have hd := Env.device_of_stored hx (describedReg_channelAddr hw hc hk)
    (channelAddr_ne_prescale hw hc hk) hr
  rw [channelAddr_toNat hw hc hk] at hd
  refine ⟨h.cfg, h.devaddr, h.busy, ?_, fun j hj => ?_, fun x hx => ?_⟩
  · show s.trace ++ [Event.write s.devaddr (channelAddr s.cfg ch k) _ true] = _
    rw [h.trace, h.cfg, h.devaddr, List.range_succ, List.map_append, List.append_assoc]
    rfl
  · show memGet e.device.reg _ = _
    rcases Nat.lt_succ_iff_lt_or_eq.mp hj with hj | rfl
    · rw [hd, memGet_memSet_other _ _ (by omega)]
      exact h.written j hj
    · rw [hd, memGet_memSet_same]
  · show memGet e.device.reg x = _
    rw [hd, memGet_memSet_other _ _ (hx k k.lt_succ_self)]
    exact h.others x fun j hj => hx j (by omega)

end SetchProgress

/-- A SETCH that ends with an error failed at one of its four writes. -/
theorem setch_failed {ch : Byte} {on off : Tick} {s t : State} (hw : s.cfg.wf = true)
    (hx : s.cfg.externalMaster = false) (hf : s.fsm = .ready) (hc : ch.toNat ≤ 15)
    (ha : s.devaddr = s.cfg.deviceAddr) (he : exec (.setch ch on off) s = .next t)
    (hb : t.busy = false) (hs : t.respStatus ≠ .ok) : ∃ k < 4, SetchFailedAt s ch on off k t := by
  have accepted : refusalOf (.setch ch on off) s.fsm = none := by simp [refusalOf, hf, hc]
  obtain ⟨-, ⟨status, hr, -⟩ | ⟨-, hrun⟩⟩ := exec_cases he
  · rw [accepted] at hr; cases hr
  refine resumeAt_induction (P := SetchProgress s ch on off)
    (Q := fun t => t.busy = false → t.respStatus ≠ .ok → ∃ k < 4, SetchFailedAt s ch on off k t)
    ?_ ?_ ?_ ?_ .start hrun hb hs
  · intro k u q e h _ _ hb
    cases h.busy.symm.trans hb
  · intro k u q e h hq hr _ _
    exact ⟨k, h.fail hw hx hc hq hr⟩
  · intro k u q d e _ _ _ _ _ hs
    exact absurd rfl hs
  · intro k u q d e h hq hr _
    exact h.next hw hx hc ha hq hr

/-- Settles O60: a failed request changes the device as a free `fail` does, and a SETCH is four such
requests. -/
theorem failedTransactionsLeaveTheOtherRegisters :
    Obligations.FailedTransactionsLeaveTheOtherRegisters := by
  intro s hw hx
  refine ⟨fun q e hr => ?_, fun ch on off t hf hc ha he hb hs => ?_⟩
  · obtain ⟨cs, hd⟩ := Env.device_of_fail hx hr
    rw [hd]
    refine ⟨?_, fun a ha hq => Device.freeFail_elsewhere ha hq cs _, ⟨by simp, by simp⟩, ?_⟩
    · rintro (⟨a, rfl⟩ | ⟨a, rfl⟩)
      · rfl
      · exact Device.freeFail_mode1 ..
    · rintro a r v rfl hreg x hne
      exact Device.freeFail_other (by simpa [describedReg, or_assoc] using hreg) hne ..
  · obtain ⟨k, hk, failed⟩ := setch_failed hw hx hf hc ha he hb hs
    exact ⟨k, hk, failed.status, failed.trace, failed.written, failed.others⟩

end Sys2Proof.Machine

/-! ### An action list, answer by answer -/

namespace Sys2Proof.Machine

open Sys2Proof.Statements

section

variable {i : Instr} {k : Nat} {s : State} {q : Request} {e : Env}

/-- Every action that a list has can be performed (rule R27). -/
theorem resumeAt_of_request (h : actionRequest i k s = some q) : ∃ t, resumeAt i k s = some t := by
  cases i with
  | openBus _ | wrreg _ _ | rdreg _ | reset =>
    obtain ⟨rfl, -⟩ := Option.ite_none_right_eq_some.mp h
    exact ⟨_, rfl⟩
  | setup a =>
    simp only [actionRequest, setupRequest] at h
    split at h
    case h_3 => cases h
    all_goals exact ⟨_, rfl⟩
  | setfreq rs f =>
    simp only [actionRequest, setfreqRequest] at h
    split at h
    case h_7 =>
      obtain ⟨hrs, -⟩ := Option.ite_none_right_eq_some.mp h
      exact ⟨_, if_pos hrs⟩
    case h_8 => cases h
    all_goals exact ⟨_, rfl⟩
  | setch ch on off =>
    obtain ⟨hk, -⟩ := Option.ite_none_right_eq_some.mp h
    interval_cases k <;> exact ⟨_, rfl⟩

/-- Performing an action has one of its outcomes. -/
theorem outcome_of_request (h : actionRequest i k s = some q) :
    ∃ t, resumeAt i k s = some t ∧ ActionOutcome i k s t q := by
  obtain ⟨t, ht⟩ := resumeAt_of_request h
  obtain ⟨q', hq', ho⟩ := resumeAt_outcome ht
  obtain rfl : q' = q := Option.some_injective _ (hq'.symm.trans h)
  exact ⟨t, ht, ho⟩

/-- Without an answer the command stays where it is (rule R85). -/
theorem resumeAt_pending (h : actionRequest i k s = some q)
    (hr : s.env.respond s.cfg q = (.pending, e)) :
    resumeAt i k s = some (s.answered q .pending e) := by
  obtain ⟨t, ht, ho⟩ := outcome_of_request h
  cases ho with
  | waits e' hr' ht' => cases hr.symm.trans hr'; rw [ht, ht']
  | fails _ hr' | completes _ _ hr' | continues _ _ hr' => cases hr.symm.trans hr'

/-- A failure ends the command (rule R29). -/
theorem resumeAt_fail (h : actionRequest i k s = some q)
    (hr : s.env.respond s.cfg q = (.fail, e)) :
    resumeAt i k s = some (onFailure i k (s.answered q .fail e)) := by
  obtain ⟨t, ht, ho⟩ := outcome_of_request h
  cases ho with
  | fails e' hr' ht' => cases hr.symm.trans hr'; rw [ht, ht']
  | waits _ hr' | completes _ _ hr' | continues _ _ hr' => cases hr.symm.trans hr'

/-- The last action completes the command (rule R30). -/
theorem resumeAt_last {d : Byte} (h : actionRequest i k s = some q)
    (hr : s.env.respond s.cfg q = (.ok d, e)) (hk : k + 1 = actionCount i) :
    resumeAt i k s =
      some ((onSuccess i k d (s.answered q (.ok d) e)).complete (responseData i d)) := by
  obtain ⟨t, ht, ho⟩ := outcome_of_request h
  cases ho with
  | completes d' e' hr' _ ht' => cases hr.symm.trans hr'; rw [ht, ht']
  | continues _ _ _ hk' => omega
  | waits _ hr' | fails _ hr' => cases hr.symm.trans hr'

/-- Any other action is followed by the next (rule R28). -/
theorem resumeAt_next {d : Byte} (h : actionRequest i k s = some q)
    (hr : s.env.respond s.cfg q = (.ok d, e)) (hk : k + 1 < actionCount i) :
    resumeAt i k s =
      resumeAt i (k + 1) (onSuccess i k d (s.answered q (.ok d) e)).advance := by
  obtain ⟨t, ht, ho⟩ := outcome_of_request h
  cases ho with
  | continues d' e' hr' _ ht' => cases hr.symm.trans hr'; rw [ht, ht']
  | completes _ _ _ hk' => omega
  | waits _ hr' | fails _ hr' => cases hr.symm.trans hr'

/-- What passes the checks and where its action list then ends is what the command does. -/
theorem exec_of_resumeAt {t : State} (hw : s.cfg.wf = true) (hn : refusalOf i s.fsm = none)
    (h : resumeAt i 0 (onStart i s).begin = some t) : exec i s = .next t := by
  obtain ⟨u, he, hu⟩ := exec_run hw hn
  rw [he, Option.some_injective _ (h.symm.trans hu)]

/-- No first action depends on what the command latches when it starts (rule R31). -/
theorem actionRequest_onStart (i : Instr) (s : State) :
    actionRequest i 0 (onStart i s).begin = actionRequest i 0 s.begin := by
  cases i <;> rfl

/-- Going on with a command only adds events (rule R13). -/
theorem resumeAt_trace {t : State} (h : resumeAt i k s = some t) : s.trace <+: t.trace := by
  obtain ⟨evs, grew, -⟩ := (GrewBy.nil rfl rfl).resumeAt h
  exact ⟨evs, grew.trace.symm⟩

/-- The answer to an action is the first event it adds, whatever follows. -/
theorem event_of_resumeAt {t : State} (hq : actionRequest i k s = some q)
    (h : resumeAt i k s = some t) :
    s.trace ++ q.event (s.env.respond s.cfg q).1 <+: t.trace := by
  rcases hr : s.env.respond s.cfg q with ⟨a, e⟩
  cases a with
  | pending =>
    rw [resumeAt_pending hq hr] at h
    cases h
    exact ⟨[], List.append_nil _⟩
  | fail =>
    rw [resumeAt_fail hq hr] at h
    cases h
    obtain ⟨-, -, ht | ⟨-, ht⟩⟩ := onFailure_frame i k (s.answered q .fail e)
    · rw [ht]; exact ⟨[], List.append_nil _⟩
    · rw [ht]; exact ⟨_, rfl⟩
  | ok d =>
    have after : (onSuccess i k d (s.answered q (.ok d) e)).trace = s.trace ++ q.event (.ok d) :=
      onSuccess_trace ..
    rcases Nat.lt_or_eq_of_le (Nat.succ_le_of_lt (actionRequest_lt hq)) with hk | hk
    · rw [resumeAt_next hq hr hk] at h
      rw [← after]
      exact resumeAt_trace (s := State.advance _) h
    · rw [resumeAt_last hq hr hk] at h
      cases h
      rw [State.complete_trace, after]

end

@[simp] theorem onStart_oldmode (i : Instr) (s : State) : (onStart i s).oldmode = s.oldmode := by
  cases i <;> rfl

@[simp] theorem onStart_responses (i : Instr) (s : State) :
    (onStart i s).responses = s.responses := by
  cases i <;> rfl

@[simp] theorem onStart_respValid (i : Instr) (s : State) :
    (onStart i s).respValid = s.respValid := by
  cases i <;> rfl

/-- Settles O24: the first action is performed, and its answer is missing. -/
theorem unansweredCommandKeepsRunning : Obligations.UnansweredCommandKeepsRunning := by
  intro i s q e hw hn hq hr
  have waits : resumeAt i 0 (onStart i s).begin =
      some ((onStart i s).begin.answered q .pending e) :=
    resumeAt_pending ((actionRequest_onStart i s).trans hq) (by simpa using hr)
  refine ⟨_, exec_of_resumeAt hw hn waits, ?_⟩
  simp [State.answered]

/-! ### The command port -/

section

variable {s : State} {w : Word} {rest : List HostInput} {i : Instr}

/-- The word on offer is accepted and runs (rule R101). -/
theorem step_offer (hw : s.cfg.wf = true) (hb : s.busy = false) (hh : s.host = .offer w :: rest) :
    step s = runWord w (s.accept w rest) := by
  simp [step, hostStep, hw, hb, hh]

theorem runWord_legal (hd : decode w = some i) (s : State) : runWord w s = exec i s := by
  simp [runWord, hd]

theorem runWord_illegal (hd : decode w = none) (s : State) :
    runWord w s = .next s.refuseIllegal := by
  simp [runWord, hd]

/-- In FATAL a word is refused whether or not it decodes (rule R212). -/
theorem runWord_fatal (hw : s.cfg.wf = true) (hf : s.fsm = .fatal) (w : Word) :
    runWord w s = .next (s.raise .fatal) := by
  cases hd : decode w with
  | none => rw [runWord_illegal hd, State.refuseIllegal, if_pos hf]
  | some i => rw [runWord_legal hd, exec_refused hw (by rw [hf]; rfl)]

end

/-- Settles O7: acceptance, then the command itself. -/
theorem stepRunsTheOfferedCommand : Obligations.StepRunsTheOfferedCommand := by
  intro s w rest i hw hb hh hd
  rw [step_offer hw hb hh, runWord_legal hd]
  rfl

/-- Settles O10: FATAL refuses the accepted word, legal or not. -/
theorem fatalAnswersEveryWord : Obligations.FatalAnswersEveryWord := by
  refine ⟨rfl, fun s w rest hw hb hh hf =>
    ⟨(s.accept w rest).raise .fatal, ?_, rfl, rfl, rfl⟩⟩
  rw [step_offer hw hb hh]
  exact runWord_fatal (s := s.accept w rest) hw hf w

/-- Settles O14: each check that fails refuses the accepted word, and a command that passes them all
performs its first action. -/
theorem firstFailingCheckIsTheResponse : Obligations.FirstFailingCheckIsTheResponse := by
  intro s w rest hw hb hh s'
  rw [step_offer hw hb hh]
  refine ⟨fun hf => runWord_fatal (s := s.accept w rest) hw hf w, fun hf hd => ?_,
    fun i hf hd => ⟨?_, ?_⟩⟩
  · rw [runWord_illegal hd, State.refuseIllegal, if_neg (by exact hf)]
    rfl
  · intro status hs
    rw [runWord_legal hd]
    exact exec_refused (s := s.accept w rest) hw hs
  · intro hn q hq
    obtain ⟨t, he, hs⟩ := exec_run (s := s.accept w rest) hw hn
    have request : actionRequest i 0 (onStart i (s.accept w rest)).begin = some q :=
      (actionRequest_onStart i _).trans hq
    exact ⟨t, (runWord_legal hd _).trans he, by simpa using event_of_resumeAt request hs⟩

/-- Settles O11: a busy block goes on with its command, which touches neither the port nor `cmd`. -/
theorem busyBlockAcceptsNothing : Obligations.BusyBlockAcceptsNothing := by
  intro s t w rest hb hh ht
  obtain ⟨-, ⟨rest, hr, -⟩ | ⟨-, -, hr⟩ | ⟨hb', -⟩ | ⟨hb', -⟩⟩ := step_cases ht
  · rw [hh] at hr; cases hr
  · obtain ⟨-, hc, hp⟩ := resume_untouched hr
    exact ⟨hp.trans hh, hc⟩
  · cases hb.symm.trans hb'
  · cases hb.symm.trans hb'

end Sys2Proof.Machine

/-! ### What the commands keep -/

namespace Sys2Proof.Machine

open Sys2Proof.Statements

/-! #### The temporaries -/

section

variable {i : Instr}

/-- The state with other temporaries. -/
def State.withTemporaries (s : State) (m p : Byte) : State := { s with oldmode := m, presc := p }

variable (hi : ∀ rs f, i ≠ .setfreq rs f)
include hi

/-- Only SETFREQ latches a temporary when an action succeeds (rule R31). -/
theorem onSuccess_withTemporaries (k : Nat) (d : Byte) (s : State) (m p : Byte) :
    onSuccess i k d (s.withTemporaries m p) = (onSuccess i k d s).withTemporaries m p := by
  cases i with
  | setfreq rs f => exact absurd rfl (hi rs f)
  | setup a => simp only [onSuccess]; split <;> rfl
  | openBus _ | wrreg _ _ | rdreg _ | reset | setch _ _ _ => rfl

theorem onFailure_withTemporaries (k : Nat) (s : State) (m p : Byte) :
    onFailure i k (s.withTemporaries m p) = (onFailure i k s).withTemporaries m p := by
  cases i with
  | setfreq rs f => exact absurd rfl (hi rs f)
  | setup a => simp only [onFailure]; split <;> rfl
  | openBus _ | wrreg _ _ | rdreg _ | reset | setch _ _ _ => rfl

theorem onStart_withTemporaries (s : State) (m p : Byte) :
    onStart i (s.withTemporaries m p) = (onStart i s).withTemporaries m p := by
  cases i with
  | setfreq rs f => exact absurd rfl (hi rs f)
  | openBus _ | setup _ | wrreg _ _ | rdreg _ | reset | setch _ _ _ => rfl

/-- Only SETFREQ asks for anything that depends on a temporary (rule R174). -/
theorem actionRequest_withTemporaries (k : Nat) (s : State) (m p : Byte) :
    actionRequest i k (s.withTemporaries m p) = actionRequest i k s := by
  cases i with
  | setfreq rs f => exact absurd rfl (hi rs f)
  | openBus _ | setup _ | wrreg _ _ | rdreg _ | reset | setch _ _ _ => rfl

/-- Any command but SETFREQ runs as it would with other temporaries, and keeps them. -/
theorem resumeAt_withTemporaries {k : Nat} {s t : State} (m p : Byte)
    (h : resumeAt i k s = some t) :
    resumeAt i k (s.withTemporaries m p) = some (t.withTemporaries m p) := by
  obtain ⟨q, hq, -⟩ := resumeAt_outcome h
  obtain ⟨u, hu⟩ := resumeAt_of_request
    ((actionRequest_withTemporaries hi k s m p).trans hq)
  have same : u = t.withTemporaries m p := by
    refine resumeAt_induction (Q := fun t => u = t.withTemporaries m p)
      (P := fun k s => resumeAt i k (s.withTemporaries m p) = some u) ?_ ?_ ?_ ?_ hu h
    · intro k s q e hu hq hr
      rw [← actionRequest_withTemporaries hi k s m p] at hq
      exact Option.some_injective _ (hu.symm.trans (resumeAt_pending hq hr))
    · intro k s q e hu hq hr
      rw [← actionRequest_withTemporaries hi k s m p] at hq
      rw [← onFailure_withTemporaries hi]
      exact Option.some_injective _ (hu.symm.trans (resumeAt_fail hq hr))
    · intro k s q d e hu hq hr hk
      rw [← actionRequest_withTemporaries hi k s m p] at hq
      have last := Option.some_injective _ (hu.symm.trans (resumeAt_last hq hr hk))
      rw [last]
      exact congrArg (fun s => State.complete s (responseData i d))
        (onSuccess_withTemporaries hi k d (s.answered q (.ok d) e) m p)
    · intro k s q d e hu hq hr hk
      rw [← actionRequest_withTemporaries hi k s m p] at hq
      have next := (resumeAt_next hq hr hk).symm.trans hu
      rw [← next]
      exact congrArg (fun s => resumeAt i (k + 1) (State.advance s))
        (onSuccess_withTemporaries hi k d (s.answered q (.ok d) e) m p).symm
  rw [hu, same]

/-- So does the whole command. -/
theorem exec_withTemporaries {s t : State} (m p : Byte) (h : exec i s = .next t) :
    exec i (s.withTemporaries m p) = .next (t.withTemporaries m p) := by
  obtain ⟨hw, ⟨status, hr, rfl⟩ | ⟨hn, hs⟩⟩ := exec_cases h
  · exact exec_refused (s := s.withTemporaries m p) hw hr
  · refine exec_of_resumeAt (s := s.withTemporaries m p) hw hn ?_
    rw [onStart_withTemporaries hi]
    exact resumeAt_withTemporaries hi m p hs

end

/-- Settles O51: with its own temporaries for the others a command runs as it does, so it ends with
them. -/
theorem onlySetfreqWritesTheTemporaries : Obligations.OnlySetfreqWritesTheTemporaries := by
  intro i s t hi h
  obtain ⟨-, cmd, host⟩ := exec_untouched h
  have same : t = t.withTemporaries s.oldmode s.presc :=
    Host.Outcome.next.inj (h.symm.trans (exec_withTemporaries hi s.oldmode s.presc h))
  have oldmode : t.oldmode = (t.withTemporaries s.oldmode s.presc).oldmode := congrArg _ same
  have presc : t.presc = (t.withTemporaries s.oldmode s.presc).presc := congrArg _ same
  exact ⟨oldmode, presc, cmd, host⟩

/-- SETFREQ overwrites `presc` at its start and `oldmode` with the byte it reads, and asks for
nothing that depends on them before (rules R31, R174). -/
theorem setfreq_withTemporaries {rs : Bool} {f : BitVec 32} {s t : State} (m p : Byte)
    (h : exec (.setfreq rs f) s = .next t) :
    ∃ m' p', exec (.setfreq rs f) (s.withTemporaries m p) = .next (t.withTemporaries m' p') := by
  obtain ⟨hw, ⟨status, hr, rfl⟩ | ⟨hn, hs⟩⟩ := exec_cases h
  · exact ⟨m, p, exec_refused (s := s.withTemporaries m p) hw hr⟩
  have run {u : State}
      (hu : resumeAt (.setfreq rs f) 0
        ((onStart (.setfreq rs f) s).begin.withTemporaries m (prescaleByte s.cfg f)) = some u) :
      exec (.setfreq rs f) (s.withTemporaries m p) = .next u :=
    exec_of_resumeAt (s := s.withTemporaries m p) hw hn hu
  obtain ⟨q, hq, ho⟩ := resumeAt_outcome hs
  cases ho with
  | waits e hr ht => exact ⟨m, prescaleByte s.cfg f, ht ▸ run (resumeAt_pending hq hr)⟩
  | fails e hr ht => exact ⟨m, prescaleByte s.cfg f, ht ▸ run (resumeAt_fail hq hr)⟩
  | completes d e hr hk ht => exact absurd hk (by cases rs <;> simp [actionCount])
  | continues d e hr hk ht =>
    have next := resumeAt_next (i := .setfreq rs f) (k := 0)
      (s := (onStart (.setfreq rs f) s).begin.withTemporaries m (prescaleByte s.cfg f)) hq hr hk
    exact ⟨t.oldmode, t.presc, run (next.trans ht)⟩

/-- Settles O50: SETFREQ overwrites both temporaries before it uses them, and the other commands do
not use them. -/
theorem temporariesCarryNothingOver : Obligations.TemporariesCarryNothingOver := by
  intro i s t m p h
  by_cases hi : ∀ rs f, i ≠ .setfreq rs f
  · exact ⟨m, p, exec_withTemporaries hi m p h⟩
  · obtain ⟨rs, f, rfl⟩ : ∃ rs f, i = .setfreq rs f := by push Not at hi; exact hi
    exact setfreq_withTemporaries m p h

/-! #### The responses -/

/-- A failure ends the command with one response, unless it stands at a wait. -/
theorem onFailure_response (i : Instr) (k : Nat) (s : State) :
    onFailure i k s = s ∨
    ((onFailure i k s).busy = false ∧ (onFailure i k s).respValid = true ∧
      (onFailure i k s).responses =
        s.responses ++ [⟨(onFailure i k s).respStatus, (onFailure i k s).respData⟩]) := by
  cases i with
  | openBus _ | wrreg _ _ | rdreg _ | reset | setch _ _ _ => exact .inr ⟨rfl, rfl, rfl⟩
  | setup a => simp only [onFailure]; split <;> exact .inr ⟨rfl, rfl, rfl⟩
  | setfreq rs f =>
    simp only [onFailure]
    split
    · exact .inr ⟨rfl, rfl, rfl⟩
    · exact .inl rfl
    · exact .inl rfl
    · exact .inr ⟨rfl, rfl, rfl⟩

/-- A success answers nothing and leaves the command running. -/
theorem onSuccess_response (i : Instr) (k : Nat) (d : Byte) (s : State) :
    (onSuccess i k d s).busy = s.busy ∧ (onSuccess i k d s).respValid = s.respValid ∧
      (onSuccess i k d s).responses = s.responses := by
  cases i with
  | setup _ | setfreq _ _ => simp only [onSuccess]; split <;> exact ⟨rfl, rfl, rfl⟩
  | openBus _ | wrreg _ _ | rdreg _ | reset | setch _ _ _ => exact ⟨rfl, rfl, rfl⟩

/-- A command is running and has not answered since `rs` were the responses. -/
structure State.Unanswered (rs : List Response) (s : State) : Prop where
  busy : s.busy = true
  respValid : s.respValid = false
  responses : s.responses = rs

/-- A command has answered once since `rs` were the responses. -/
structure State.AnsweredOnce (rs : List Response) (s : State) : Prop where
  busy : s.busy = false
  respValid : s.respValid = true
  responses : s.responses = rs ++ [⟨s.respStatus, s.respData⟩]

/-- The rest of an action list answers once, or the command is left waiting. -/
theorem resumeAt_answersOnce {i : Instr} {k : Nat} {s t : State} {rs : List Response}
    (h : s.Unanswered rs) (he : resumeAt i k s = some t) : t.AnsweredOnce rs ∨ t.Unanswered rs := by
  refine resumeAt_induction (P := fun _ => State.Unanswered rs)
    (Q := fun t => t.AnsweredOnce rs ∨ t.Unanswered rs) ?_ ?_ ?_ ?_ h he
  · intro k s q e h _ _
    exact .inr ⟨h.busy, h.respValid, h.responses⟩
  · intro k s q e h _ _
    rcases onFailure_response i k (s.answered q .fail e) with hs | ⟨busy, valid, responses⟩
    · rw [hs]; exact .inr ⟨h.busy, h.respValid, h.responses⟩
    · exact .inl ⟨busy, valid, h.responses ▸ responses⟩
  · intro k s q d e h _ _ _
    obtain ⟨-, -, responses⟩ := onSuccess_response i k d (s.answered q (.ok d) e)
    exact .inl ⟨rfl, rfl, congrArg (· ++ _) (responses.trans h.responses)⟩
  · intro k s q d e h _ _ _
    obtain ⟨busy, valid, responses⟩ := onSuccess_response i k d (s.answered q (.ok d) e)
    exact ⟨busy.trans h.busy, valid.trans h.respValid, responses.trans h.responses⟩

/-- An accepted command answers once, or is left waiting. -/
theorem exec_answersOnce {i : Instr} {s t : State} (hv : s.respValid = false)
    (he : exec i s = .next t) : t.AnsweredOnce s.responses ∨ t.Unanswered s.responses := by
  obtain ⟨-, ⟨status, -, rfl⟩ | ⟨-, hs⟩⟩ := exec_cases he
  · exact .inl ⟨rfl, rfl, rfl⟩
  · exact resumeAt_answersOnce ⟨rfl, by simpa using hv, by simp⟩ hs

/-- Settles O46: the word is accepted, and the command, or the refusal, answers. -/
theorem oneResponsePerAcceptedWord : Obligations.OneResponsePerAcceptedWord := by
  intro s t w rest hb hh ht
  obtain ⟨hw, -⟩ := step_cases ht
  rw [step_offer hw hb hh] at ht
  cases hd : decode w with
  | none =>
    rw [runWord_illegal hd] at ht
    cases ht
    unfold State.refuseIllegal
    split <;> exact ⟨rfl, rfl, .inl ⟨rfl, rfl, rfl⟩⟩
  | some i =>
    rw [runWord_legal hd] at ht
    obtain ⟨-, cmd, host⟩ := exec_untouched ht
    refine ⟨cmd, host, (exec_answersOnce rfl ht).imp ?_ ?_⟩
    · exact fun h => ⟨h.busy, h.respValid, h.responses⟩
    · exact fun h => ⟨h.busy, h.respValid, h.responses⟩

/-! #### The claimed address -/

/-- From `s₀` to `s` the address is kept, or it is that of a claim granted since. -/
structure ClaimedSince (s₀ s : State) : Prop where
  devaddr : s.devaddr = s₀.devaddr ∨ Event.claim s.devaddr true ∈ addedEvents s₀ s
  events : s₀.trace <+: s.trace

namespace ClaimedSince

variable {s₀ s s' : State}

theorem refl (devaddr : s.devaddr = s₀.devaddr) (trace : s.trace = s₀.trace) : ClaimedSince s₀ s :=
  ⟨.inl devaddr, [], by rw [trace, List.append_nil]⟩

/-- More events and the same address. -/
theorem append (h : ClaimedSince s₀ s) (devaddr : s'.devaddr = s.devaddr) {evs : List Event}
    (trace : s'.trace = s.trace ++ evs) : ClaimedSince s₀ s' := by
  obtain ⟨before, hb⟩ := h.events
  refine ⟨?_, before ++ evs, by rw [trace, ← hb, List.append_assoc]⟩
  rw [devaddr]
  refine h.devaddr.imp_right fun hm => ?_
  rw [addedEvents, ← hb, List.drop_left] at hm
  rw [addedEvents, trace, ← hb, List.append_assoc, List.drop_left]
  exact List.mem_append_left _ hm

/-- A granted claim. -/
theorem claim (h : ClaimedSince s₀ s) {a : BusAddr} (devaddr : s'.devaddr = a)
    (trace : s'.trace = s.trace ++ [.claim a true]) : ClaimedSince s₀ s' := by
  obtain ⟨before, hb⟩ := h.events
  refine ⟨.inr ?_, before ++ [.claim a true], by rw [trace, ← hb, List.append_assoc]⟩
  rw [addedEvents, devaddr, trace, ← hb, List.append_assoc, List.drop_left]
  exact List.mem_append_right _ (List.mem_singleton_self _)

/-- A success may be that of a claim. -/
theorem onSuccess (h : ClaimedSince s₀ s) {i : Instr} {k : Nat} {q : Request}
    (hq : actionRequest i k s = some q) (d : Byte) (e : Env) :
    ClaimedSince s₀ (onSuccess i k d (s.answered q (.ok d) e)) := by
  rcases onSuccess_devaddr hq with hd | ⟨-, a, rfl, hd⟩
  · exact h.append (hd ..) (onSuccess_trace ..)
  · exact h.claim (hd ..) (onSuccess_trace ..)

/-- A failure adds events at most. -/
theorem onFailure (h : ClaimedSince s₀ s) (i : Instr) (k : Nat) :
    ClaimedSince s₀ (onFailure i k s) := by
  obtain ⟨-, hd, ht | ⟨-, ht⟩⟩ := onFailure_frame i k s
  · exact h.append (evs := []) hd (by rw [ht, List.append_nil])
  · exact h.append hd ht

theorem resumeAt {i : Instr} {k : Nat} {t : State} (h : ClaimedSince s₀ s)
    (he : resumeAt i k s = some t) : ClaimedSince s₀ t :=
  resumeAt_induction (P := fun _ => ClaimedSince s₀)
    (fun _ _ _ _ h _ _ => h.append rfl rfl)
    (fun _ s q e h _ _ => (h.append (s' := s.answered q .fail e) rfl rfl).onFailure _ _)
    (fun _ _ _ d e h hq _ _ => (h.onSuccess hq d e).append rfl (List.append_nil _).symm)
    (fun _ _ _ d e h hq _ _ => (h.onSuccess hq d e).append rfl (List.append_nil _).symm) h he

theorem exec {i : Instr} {t : State} (h : ClaimedSince s₀ s) (he : exec i s = .next t) :
    ClaimedSince s₀ t := by
  obtain ⟨-, ⟨status, -, rfl⟩ | ⟨-, hs⟩⟩ := exec_cases he
  · exact h.append rfl (List.append_nil _).symm
  · exact (h.append (s' := (onStart i s).begin) (evs := []) (by simp) (by simp)).resumeAt hs

end ClaimedSince

/-- Settles O48: everything else a step can do keeps `devaddr`. -/
theorem onlyASuccessfulClaimWritesDevaddr : Obligations.OnlyASuccessfulClaimWritesDevaddr := by
  intro s t ht hne
  obtain ⟨-, ⟨rest, hh, rfl⟩ | ⟨-, -, hr⟩ | ⟨-, w, rest, -, ⟨i, -, he⟩ | ⟨-, rfl⟩⟩ |
    ⟨-, -, rfl⟩⟩ := step_cases ht
  · exact .inl ⟨rest, hh, rfl⟩
  · obtain ⟨i, -, hi⟩ := resume_next hr
    have since : ClaimedSince s t := (ClaimedSince.refl rfl rfl).resumeAt hi
    exact .inr (since.devaddr.resolve_left hne)
  · have since : ClaimedSince s t := ClaimedSince.exec (s := s.accept w rest) (.refl rfl rfl) he
    exact .inr (since.devaddr.resolve_left hne)
  · refine absurd ?_ hne
    unfold State.refuseIllegal; split <;> rfl
  · refine absurd ?_ hne
    unfold State.idle; split <;> rfl

/-! #### The FSM -/

/-- `fsm` stays, or takes a row of rule R22 for the command. -/
def FsmStep (i : Instr) (f g : Fsm) : Prop := g = f ∨ fsmMove i f g = true

/-- A success takes a row of rule R22, whatever rows the command took before it. -/
theorem onSuccess_fsm {i : Instr} {k : Nat} {s : State} {f : Fsm} (hr : runsIn i k s.fsm = true)
    (hf : FsmStep i f s.fsm) (d : Byte) : FsmStep i f (onSuccess i k d s).fsm := by
  cases i with
  | openBus a =>
    have closed : s.fsm = .closed := by simpa [runsIn] using hr
    show FsmStep (.openBus a) f .opened
    cases f <;> simp_all [FsmStep, fsmMove]
  | reset =>
    have handle : s.fsm = .opened ∨ s.fsm = .ready := by simpa [runsIn] using hr
    show FsmStep .reset f .ready
    rcases handle with hs | hs <;> cases f <;> simp_all [FsmStep, fsmMove]
  | setup a =>
    by_cases hk : k = 0
    · have closed : s.fsm = .closed := by simpa [runsIn, hk] using hr
      rw [onSuccess, if_pos hk]
      show FsmStep (.setup a) f .opened
      cases f <;> simp_all [FsmStep, fsmMove]
    · have opened : s.fsm = .opened := by simpa [runsIn, hk] using hr
      rw [onSuccess, if_neg hk]
      show FsmStep (.setup a) f .ready
      cases f <;> simp_all [FsmStep, fsmMove]
  | setfreq rs g => simp only [onSuccess]; split <;> exact hf
  | wrreg _ _ | rdreg _ | setch _ _ _ => exact hf

/-- So does a failure. -/
theorem onFailure_fsm {i : Instr} {k : Nat} {s : State} {f : Fsm} (hr : runsIn i k s.fsm = true)
    (hf : FsmStep i f s.fsm) : FsmStep i f (onFailure i k s).fsm := by
  cases i with
  | reset =>
    have handle : s.fsm = .opened ∨ s.fsm = .ready := by simpa [runsIn] using hr
    show FsmStep .reset f .opened
    rcases handle with hs | hs <;> cases f <;> simp_all [FsmStep, fsmMove]
  | setup a =>
    by_cases hk : k = 0
    · have closed : s.fsm = .closed := by simpa [runsIn, hk] using hr
      rw [onFailure, if_pos hk]
      show FsmStep (.setup a) f .fatal
      cases f <;> simp_all [FsmStep, fsmMove]
    · have opened : s.fsm = .opened := by simpa [runsIn, hk] using hr
      rw [onFailure_setup_reset hk]
      show FsmStep (.setup a) f .fatal
      cases f <;> simp_all [FsmStep, fsmMove]
  | setfreq rs g => simp only [onFailure]; split <;> exact hf
  | openBus _ | wrreg _ _ | rdreg _ | setch _ _ _ => exact hf

/-- The rest of an action list takes a row of rule R22. -/
theorem State.RunningAt.fsmStep {i : Instr} {k : Nat} {s t : State} {f : Fsm}
    (h : s.RunningAt i k) (hf : FsmStep i f s.fsm) (he : Machine.resumeAt i k s = some t) :
    FsmStep i f t.fsm :=
  resumeAt_induction (P := fun k s => s.RunningAt i k ∧ FsmStep i f s.fsm)
    (Q := fun t => FsmStep i f t.fsm)
    (fun _ _ _ _ h _ _ => h.2)
    (fun _ s q e h _ _ => onFailure_fsm (s := s.answered q .fail e) h.1.runs.1 h.2)
    (fun _ s q d e h _ _ _ => onSuccess_fsm (s := s.answered q (.ok d) e) h.1.runs.1 h.2 d)
    (fun _ s q d e h hq hr hk => ⟨h.1.onNext hq hr hk,
      onSuccess_fsm (s := s.answered q (.ok d) e) h.1.runs.1 h.2 d⟩) ⟨h, hf⟩ he

/-- Settles O41: a command that runs takes a row of the table; no refusal or wait moves `fsm`. -/
theorem fsmMovesOnlyAsTabled : Obligations.FsmMovesOnlyAsTabled := by
  intro s t h ht
  have row {i : Instr} (hd : decode t.cmd = some i) (hf : FsmStep i s.fsm t.fsm) :
      t.fsm = s.fsm ∨ (t.fsm = .closed ∧ ∃ rest, s.host = .reset :: rest) ∨
        ∃ i, decode t.cmd = some i ∧ fsmMove i s.fsm t.fsm = true :=
    hf.imp_right fun hm => .inr ⟨i, hd, hm⟩
  obtain ⟨-, ⟨rest, hh, rfl⟩ | ⟨hb, -, hr⟩ | ⟨hb, w, rest, -, ⟨i, hd, he⟩ | ⟨-, rfl⟩⟩ |
    ⟨-, -, rfl⟩⟩ := step_cases ht
  · exact .inr (.inl ⟨rfl, rest, hh⟩)
  · obtain ⟨i, hd, hi⟩ := resume_next hr
    have running : s.RunningAt i s.step.toNat := ⟨h, hb, hd, rfl⟩
    exact row ((resume_untouched hr).2.1 ▸ hd) (running.fsmStep (.inl rfl) hi)
  · refine row (i := i) (by rwa [(exec_untouched he).2.1]) ?_
    obtain ⟨-, ⟨status, -, rfl⟩ | ⟨hn, hs⟩⟩ := exec_cases he
    · exact .inl rfl
    · have running := State.RunningAt.begin ((h.accept hb w rest).onStart i) (by simpa using hd)
        (by simpa using hn)
      exact running.fsmStep (.inl (onStart_fsm i _)) hs
  · refine .inl ?_
    unfold State.refuseIllegal; split <;> rfl
  · refine .inl ?_
    unfold State.idle; split <;> rfl

/-! #### The entry to FATAL -/

/-- What a SETUP that failed leaves: its response, the cause and the last events (rule R216). -/
structure FatalEntry (a : BusAddr) (t : State) : Prop where
  busy : t.busy = false
  status : t.respStatus = t.fatalCode
  cause : (t.fatalCode = .busOpenFailed ∧ [Event.claim a false] <:+ t.trace) ∨
    (t.fatalCode = .resetFailed ∧ t.env.device.claimed = false ∧
      [Event.write t.devaddr t.cfg.mode1Addr 0x00 false, Event.release t.devaddr] <:+ t.trace)

/-- No success enters FATAL. -/
theorem onSuccess_fsm_ne_fatal {s : State} (h : s.fsm ≠ .fatal) (i : Instr) (k : Nat) (d : Byte) :
    (onSuccess i k d s).fsm ≠ .fatal := by
  cases i with
  | setup a => simp only [onSuccess]; split <;> exact nofun
  | setfreq rs f => simp only [onSuccess]; split <;> exact h
  | openBus _ | reset => exact nofun
  | wrreg _ _ | rdreg _ | setch _ _ _ => exact h

/-- A failure enters FATAL only in SETUP. -/
theorem onFailure_fatal {i : Instr} {k : Nat} {s : State} {q : Request} (h : s.fsm ≠ .fatal)
    (hq : actionRequest i k s = some q) (e : Env)
    (ht : (onFailure i k (s.answered q .fail e)).fsm = .fatal) :
    ∃ a, i = .setup a ∧ FatalEntry a (onFailure i k (s.answered q .fail e)) := by
  cases i with
  | openBus _ | wrreg _ _ | rdreg _ | setch _ _ _ => exact absurd ht h
  | reset => cases ht
  | setfreq rs f =>
    simp only [onFailure] at ht
    split at ht <;> exact absurd ht h
  | setup a =>
    refine ⟨a, rfl, ?_⟩
    simp only [actionRequest, setupRequest] at hq
    split at hq <;> cases hq
    · exact ⟨rfl, rfl, .inl ⟨rfl, s.trace, rfl⟩⟩
    · refine ⟨rfl, rfl, .inr ⟨rfl, rfl, s.trace, ?_⟩⟩
      simp [onFailure, State.answered, Request.event, resetWrite, resetByte]

/-- Going on with a command enters FATAL only in SETUP. -/
theorem resumeAt_fatal {i : Instr} {k : Nat} {s t : State} (h : s.fsm ≠ .fatal)
    (he : resumeAt i k s = some t) (ht : t.fsm = .fatal) : ∃ a, i = .setup a ∧ FatalEntry a t := by
  refine resumeAt_induction (P := fun _ s => s.fsm ≠ .fatal)
    (Q := fun t => t.fsm = .fatal → ∃ a, i = .setup a ∧ FatalEntry a t) ?_ ?_ ?_ ?_ h he ht
  · intro k s q e h _ _ ht
    exact absurd ht h
  · intro k s q e h hq _ ht
    exact onFailure_fatal h hq e ht
  · intro k s q d e h _ _ _ ht
    exact absurd ht (onSuccess_fsm_ne_fatal (s := s.answered q (.ok d) e) h i k d)
  · intro k s q d e h _ _ _
    exact onSuccess_fsm_ne_fatal (s := s.answered q (.ok d) e) h i k d

/-- Settles O43: only a failure of a running SETUP enters FATAL; a refusal, a wait and a hardware
reset do not. -/
theorem onlyAFailedSetupEntersFatal : Obligations.OnlyAFailedSetupEntersFatal := by
  intro s t ht hs hf
  obtain ⟨-, ⟨rest, -, rfl⟩ | ⟨-, -, hr⟩ | ⟨-, w, rest, -, ⟨i, hd, he⟩ | ⟨-, rfl⟩⟩ |
    ⟨-, -, rfl⟩⟩ := step_cases ht
  · cases hf
  · obtain ⟨i, hd, hi⟩ := resume_next hr
    obtain ⟨a, rfl, entry⟩ := resumeAt_fatal hs hi hf
    exact ⟨a, (resume_untouched hr).2.1 ▸ hd, entry.busy, entry.status, entry.cause⟩
  · obtain ⟨-, ⟨status, -, rfl⟩ | ⟨-, hrun⟩⟩ := exec_cases he
    · exact absurd hf hs
    · obtain ⟨a, rfl, entry⟩ := resumeAt_fatal (by simpa using hs) hrun hf
      exact ⟨a, (exec_untouched he).2.1 ▸ hd, entry.busy, entry.status, entry.cause⟩
  · refine absurd (hf.symm.trans ?_).symm hs
    unfold State.refuseIllegal; split <;> rfl
  · refine absurd (hf.symm.trans ?_).symm hs
    unfold State.idle; split <;> rfl

/-! #### Hardware reset -/

/-- Without a turn in which time passes an idle block changes nothing (rule R240). -/
theorem State.idle_eq_self {s : State} (h : ∀ foreign rest, s.env.turns ≠ ⟨foreign, none⟩ :: rest) :
    s.idle = s := by
  have stays : s.env.passTime s.cfg = none := by
    unfold Env.passTime
    split
    · next foreign rest ht => exact absurd ht (h foreign rest)
    · rfl
  rw [State.idle, stays]

/-- An idle block waits (rule R240). -/
theorem step_idle {s : State} (hw : s.cfg.wf = true) (hb : s.busy = false) (hh : s.host = []) :
    step s = .next s.idle := by
  simp [step, hostStep, hw, hb, hh]

/-- `rst` wins over everything (rules R240, R242). -/
theorem step_reset {s : State} {rest : List HostInput} (hw : s.cfg.wf = true)
    (hh : s.host = .reset :: rest) : step s = .next { s with host := rest }.hardwareReset := by
  simp [step, hostStep, hw, hh]

/-- Settles O44: hardware reset writes each register, and the block is then idle. -/
theorem hardwareResetValues : Obligations.HardwareResetValues := by
  intro s rest hw hh
  refine ⟨_, step_reset hw hh, rfl, rfl, rfl, rfl, rfl, rfl, rfl, rfl, rfl, rfl, rfl, rfl, rfl, ?_⟩
  intro hr ht
  rw [step_idle (s := State.hardwareReset { s with host := rest }) hw rfl hr, State.idle_eq_self ht]

/-- Settles O37: State.reset holds the values of rule R40. -/
theorem resetValues : Obligations.ResetValues := by
  unfold Obligations.ResetValues
  decide

/-- Settles O38: at reset the device knows no register, no claim is held, and no command runs. -/
theorem invariantAtReset : Obligations.InvariantAtReset where
  memory := memory_wf_nil
  claim := rfl
  rest _ := rfl
  running h := nomatch h
  fatalCodeClear _ := rfl
  fatalCodeCause h := nomatch h
  errorData _ := rfl

/-- Settles O59: the tables are finite, and each output is one register or a test of `fsm`. -/
theorem codeTablesAndHostPort : Obligations.CodeTablesAndHostPort := by
  refine ⟨rfl, rfl, fun status => ?_, fun s => ⟨rfl, rfl, rfl, rfl, ?_, ?_, ?_, rfl⟩⟩
  · cases status <;> decide
  · simp [State.hostOutputs, State.isOpen]
  · simp [State.hostOutputs, State.isReady]
  · simp [State.hostOutputs, State.isFatal]

end Sys2Proof.Machine

/-! ### Waiting -/

namespace Sys2Proof.Machine

open Sys2Proof.Statements

/-- The environment with other coming turns. -/
def Env.withTurns (e : Env) (turns : List EnvTurn) : Env := { e with turns := turns }

/-- The state with other coming turns of its environment. -/
def State.withTurns (s : State) (turns : List EnvTurn) : State :=
  { s with env := s.env.withTurns turns }

/-- The turn in which the environment lets a command wait and does nothing. -/
abbrev waitTurn : EnvTurn := ⟨[], none⟩

theorem Device.foreign_nil (cfg : Config) (d : Device) : d.foreign cfg [] = d := by
  unfold Device.foreign
  split <;> rfl

/-- In a turn that lets the command wait a request is not answered, and nothing else happens (rule
R85). -/
theorem Env.respond_wait (cfg : Config) (q : Request) (e : Env) :
    (e.withTurns (waitTurn :: e.turns)).respond cfg q = (.pending, e) := by
  cases q with
  | delay t =>
    simp [Env.withTurns, Env.respond, Env.respondDelay, Env.passTime, Device.foreign_nil]
  | claim _ | write _ _ _ | read _ _ =>
    simp [Env.withTurns, Env.respond, Env.respondBus, Env.nextTurn, Env.turnTaken,
      Device.takeTurn, Device.foreign_nil]

/-- A request takes turns from the front only, and at most the first, so the turns behind it make no
difference. -/
theorem Env.respond_frame {cfg : Config} {q : Request} {e e' : Env} {a : Answer} {turn : EnvTurn}
    {before after : List EnvTurn} (ht : e.turns = turn :: before ++ after)
    (hr : e.respond cfg q = (a, e')) :
    ∃ n, e'.turns = (turn :: before).drop n ++ after ∧ ∀ after',
      (e.withTurns (turn :: before ++ after')).respond cfg q =
        (a, e'.withTurns ((turn :: before).drop n ++ after')) := by
  obtain ⟨d, turns, answering, drawn⟩ := e
  obtain ⟨foreign, reply⟩ := turn
  subst ht
  cases q with
  | delay t =>
    cases reply with
    | none => cases hr; exact ⟨1, rfl, fun _ => rfl⟩
    | some _ => cases hr; exact ⟨0, rfl, fun _ => rfl⟩
  | claim _ | write _ _ _ | read _ _ =>
    cases reply with
    | none => cases hr; exact ⟨1, rfl, fun _ => rfl⟩
    | some _ => cases hr; exact ⟨1, rfl, fun _ => rfl⟩

section

variable {i : Instr}

theorem onSuccess_withTurns (k : Nat) (d : Byte) (s : State) (turns : List EnvTurn) :
    onSuccess i k d (s.withTurns turns) = (onSuccess i k d s).withTurns turns := by
  cases i with
  | setup _ | setfreq _ _ => simp only [onSuccess]; split <;> rfl
  | openBus _ | wrreg _ _ | rdreg _ | reset | setch _ _ _ => rfl

theorem onFailure_withTurns (k : Nat) (s : State) (turns : List EnvTurn) :
    onFailure i k (s.withTurns turns) = (onFailure i k s).withTurns turns := by
  cases i with
  | setup _ | setfreq _ _ => simp only [onFailure]; split <;> rfl
  | openBus _ | wrreg _ _ | rdreg _ | reset | setch _ _ _ => rfl

theorem onStart_withTurns (s : State) (turns : List EnvTurn) :
    onStart i (s.withTurns turns) = (onStart i s).withTurns turns := by
  cases i <;> rfl

theorem actionRequest_withTurns (k : Nat) (s : State) (turns : List EnvTurn) :
    actionRequest i k (s.withTurns turns) = actionRequest i k s := by
  cases i <;> rfl

@[simp] theorem onSuccess_env (k : Nat) (d : Byte) (s : State) :
    (onSuccess i k d s).env = s.env := by
  cases i with
  | setup _ | setfreq _ _ => simp only [onSuccess]; split <;> rfl
  | openBus _ | wrreg _ _ | rdreg _ | reset | setch _ _ _ => rfl

@[simp] theorem onSuccess_step (k : Nat) (d : Byte) (s : State) :
    (onSuccess i k d s).step = s.step := by
  cases i with
  | setup _ | setfreq _ _ => simp only [onSuccess]; split <;> rfl
  | openBus _ | wrreg _ _ | rdreg _ | reset | setch _ _ _ => rfl

/-- A failure releases the claim at most. -/
@[simp] theorem onFailure_turns (k : Nat) (s : State) :
    (onFailure i k s).env.turns = s.env.turns := by
  cases i with
  | setup _ | setfreq _ _ => simp only [onFailure]; split <;> rfl
  | openBus _ | wrreg _ _ | rdreg _ | reset | setch _ _ _ => rfl

/-- A command is running, with action `k` next. -/
structure State.AtAction (k : Nat) (s : State) : Prop where
  busy : s.busy = true
  index : s.step.toNat = k

theorem State.AtAction.next {k : Nat} {s : State} {q : Request} (h : s.AtAction k)
    (hk : k + 1 < actionCount i) (d : Byte) (e : Env) :
    (onSuccess i k d (s.answered q (.ok d) e)).advance.AtAction (k + 1) := by
  obtain ⟨busy, -⟩ := onSuccess_response i k d (s.answered q (.ok d) e)
  refine ⟨busy.trans h.busy, ?_⟩
  rw [State.advance_step, onSuccess_step]
  have := actionCount_le i
  have : s.step.toNat = k := h.index
  show (s.step + 1).toNat = k + 1
  bv_omega

/-- What becomes of a run to `t` when a wait stands between the turns `before` and `after`: the run
waits in `u` and goes on to `t`, or it ends before the wait. -/
def WaitedOrLeft (i : Instr) (before after : List EnvTurn) (t u : State) : Prop :=
  (u.busy = true ∧ resumeAt i u.step.toNat u = some t) ∨
  (u.busy = false ∧ ∃ n, u = t.withTurns (before.drop n ++ waitTurn :: after) ∧
    t.env.turns = before.drop n ++ after)

theorem WaitedOrLeft.of_drop {before after : List EnvTurn} {t u : State} {n : Nat}
    (h : WaitedOrLeft i (before.drop n) after t u) : WaitedOrLeft i before after t u := by
  refine h.imp_right fun ⟨hb, m, hu, ht⟩ => ⟨hb, n + m, ?_⟩
  rw [← List.drop_drop]
  exact ⟨hu, ht⟩

/-- The rest of an action list, made to wait. -/
theorem resumeAt_wait {k : Nat} {s t : State} {before after : List EnvTurn} (h : s.AtAction k)
    (ht : s.env.turns = before ++ after) (he : resumeAt i k s = some t) (hb : t.busy = false) :
    ∃ u, resumeAt i k (s.withTurns (before ++ waitTurn :: after)) = some u ∧
      WaitedOrLeft i before after t u := by
  obtain ⟨q, hq, ho⟩ := resumeAt_outcome he
  have request := (actionRequest_withTurns k s (before ++ waitTurn :: after)).trans hq
  cases before with
  | nil =>
    have waits : (s.withTurns (waitTurn :: after)).env.respond s.cfg q = (.pending, s.env) := by
      rw [List.nil_append] at ht
      rw [← ht]
      exact s.env.respond_wait s.cfg q
    have stays : (s.withTurns (waitTurn :: after)).answered q .pending s.env = s := by
      simp [State.answered, State.withTurns]
    refine ⟨s, ?_, .inl ⟨h.busy, h.index ▸ he⟩⟩
    exact (resumeAt_pending request waits).trans (congrArg some stays)
  | cons turn before =>
    cases ho with
    | waits e hr hu =>
      rw [hu] at hb
      cases h.busy.symm.trans hb
    | fails e hr hu =>
      obtain ⟨n, hn, frame⟩ := Env.respond_frame ht hr
      have failed := resumeAt_fail request (frame (waitTurn :: after))
      have same := onFailure_withTurns (i := i) k (s.answered q .fail e)
        ((turn :: before).drop n ++ waitTurn :: after)
      refine ⟨_, failed.trans (congrArg some same), .inr ?_⟩
      rw [← hu]
      exact ⟨hb, n, rfl, by rw [hu, onFailure_turns]; exact hn⟩
    | completes d e hr hk hu =>
      obtain ⟨n, hn, frame⟩ := Env.respond_frame ht hr
      have last := resumeAt_last request (frame (waitTurn :: after)) hk
      have same := onSuccess_withTurns (i := i) k d (s.answered q (.ok d) e)
        ((turn :: before).drop n ++ waitTurn :: after)
      refine ⟨_, last.trans (congrArg (fun s => some (State.complete s (responseData i d))) same),
        .inr ⟨rfl, n, ?_, ?_⟩⟩
      · rw [hu]; rfl
      · rw [hu, State.complete_env, onSuccess_env]; exact hn
    | continues d e hr hk hu =>
      obtain ⟨n, hn, frame⟩ := Env.respond_frame ht hr
      have next := resumeAt_next request (frame (waitTurn :: after)) hk
      have same := onSuccess_withTurns (i := i) k d (s.answered q (.ok d) e)
        ((turn :: before).drop n ++ waitTurn :: after)
      have turns : (onSuccess i k d (s.answered q (.ok d) e)).advance.env.turns =
          (turn :: before).drop n ++ after := by
        rw [State.advance_env, onSuccess_env]; exact hn
      obtain ⟨u, hu, hw⟩ := resumeAt_wait (h.next hk d e) turns hu hb
      have goesOn := congrArg (fun s => resumeAt i (k + 1) (State.advance s)) same
      exact ⟨u, next.trans (goesOn.trans hu), hw.of_drop⟩
termination_by actionCount i - k

end

/-- Settles O25: a refused command takes no turn, and one that runs is made to wait at the action
that meets the wait. -/
theorem waitingDoesNotChangeACommand : Obligations.WaitingDoesNotChangeACommand := by
  intro i s t before after hw hd hh ht he hb
  show ∃ u, exec i (s.withTurns (before ++ waitTurn :: after)) = .next u ∧ _
  obtain ⟨-, ⟨status, hr, rfl⟩ | ⟨hn, hs⟩⟩ := exec_cases he
  · have refused := exec_refused (s := s.withTurns (before ++ waitTurn :: after)) hw hr
    exact ⟨_, refused, .inr ⟨rfl, 0, rfl, ht⟩⟩
  · have start : (onStart i s).begin.AtAction 0 := ⟨rfl, rfl⟩
    obtain ⟨u, hu, waited⟩ := resumeAt_wait start (by simpa using ht) hs hb
    have run : exec i (s.withTurns (before ++ waitTurn :: after)) = .next u := by
      refine exec_of_resumeAt hw hn ?_
      rw [onStart_withTurns]
      exact hu
    refine ⟨u, run, waited.imp_left fun ⟨busy, goesOn⟩ => ⟨busy, ?_⟩⟩
    obtain ⟨cfg, cmd, host⟩ := exec_untouched run
    have decoded : decode u.cmd = some i := cmd ▸ hd
    have resumed : resume u = .next t := by simp [resume, decoded, goesOn]
    simp [step, hostStep, cfg, host, busy, resumed, State.withTurns, hw, hh]

end Sys2Proof.Machine

/-! ### SETFREQ, action by action -/

namespace Sys2Proof.Machine

open Sys2Proof.Statements

/-- SETFREQ in READY with a frequency passes its checks (rule R213). -/
theorem setfreq_accepted {rs : Bool} {f : BitVec 32} {s : State} (hf : s.fsm = .ready)
    (h0 : f ≠ 0) : refusalOf (.setfreq rs f) s.fsm = none := by
  rw [hf]
  exact if_neg h0

/-- The first five actions of SETFREQ are never the last (rule R174). -/
theorem setfreq_more {k : Nat} (hk : k < 5) (rs : Bool) (f : BitVec 32) :
    k + 1 < actionCount (.setfreq rs f) := by
  simp only [actionCount]
  split <;> omega

/-- A SETFREQ that was accepted in `s`, before its action `k`: the events `evs` came, the
environment is `e`, and `oldmode` holds `m` (rules R27, R31). -/
def setfreqAt (s : State) (f : BitVec 32) (m : Byte) (k : Nat) (e : Env) (evs : List Event) :
    State :=
  { s with
    busy := true, step := BitVec.ofNat 3 k, oldmode := m, presc := prescaleByte s.cfg f
    env := e, trace := s.trace ++ evs }

section

variable {rs : Bool} {f : BitVec 32} {s : State} {m d : Byte} {k : Nat} {e e' : Env}
  {evs : List Event} {q : Request}

theorem setfreqAt_start :
    (onStart (.setfreq rs f) s).begin = setfreqAt s f s.oldmode 0 s.env [] := by
  simp [setfreqAt, onStart, State.begin]

theorem setfreqAt_answered (a : Answer) :
    (setfreqAt s f m k e evs).answered q a e' = setfreqAt s f m k e' (evs ++ q.event a) := by
  simp [setfreqAt, State.answered]

theorem setfreqAt_advance :
    (setfreqAt s f m k e evs).advance = setfreqAt s f m (k + 1) e evs := by
  simp [setfreqAt, State.advance, BitVec.ofNat_add]

/-- The read is answered: its byte is `oldmode`. -/
theorem setfreqAt_read (hr : s.env.respond s.cfg (.read s.devaddr s.cfg.mode1Addr) = (.ok m, e)) :
    resumeAt (.setfreq rs f) 0 (setfreqAt s f s.oldmode 0 s.env []) =
      resumeAt (.setfreq rs f) 1
        (setfreqAt s f m 1 e [.read s.devaddr s.cfg.mode1Addr (some m)]) := by
  rw [resumeAt_next (s := setfreqAt s f s.oldmode 0 s.env []) rfl hr
    (setfreq_more (by decide) rs f), setfreqAt_answered]
  exact congrArg (resumeAt (.setfreq rs f) 1)
    (setfreqAt_advance (s := s) (k := 0) (evs := [.read s.devaddr s.cfg.mode1Addr (some m)]))

/-- Another action succeeds: it leaves its event only. -/
theorem setfreqAt_next (hq : actionRequest (.setfreq rs f) k (setfreqAt s f m k e evs) = some q)
    (hr : e.respond s.cfg q = (.ok d, e')) (h0 : k ≠ 0)
    (hk : k + 1 < actionCount (.setfreq rs f)) :
    resumeAt (.setfreq rs f) k (setfreqAt s f m k e evs) =
      resumeAt (.setfreq rs f) (k + 1) (setfreqAt s f m (k + 1) e' (evs ++ q.event (.ok d))) := by
  rw [resumeAt_next hq hr hk, onSuccess, if_neg h0, setfreqAt_answered, setfreqAt_advance]

/-- The last action succeeds. -/
theorem setfreqAt_last (hq : actionRequest (.setfreq rs f) k (setfreqAt s f m k e evs) = some q)
    (hr : e.respond s.cfg q = (.ok d, e')) (h0 : k ≠ 0)
    (hk : k + 1 = actionCount (.setfreq rs f)) :
    resumeAt (.setfreq rs f) k (setfreqAt s f m k e evs) =
      some ((setfreqAt s f m k e' (evs ++ q.event (.ok d))).complete 0x00) := by
  rw [resumeAt_last hq hr hk, onSuccess, if_neg h0, setfreqAt_answered]
  rfl

/-- An action fails. -/
theorem setfreqAt_fail (hq : actionRequest (.setfreq rs f) k (setfreqAt s f m k e evs) = some q)
    (hr : e.respond s.cfg q = (.fail, e')) :
    resumeAt (.setfreq rs f) k (setfreqAt s f m k e evs) =
      some (onFailure (.setfreq rs f) k (setfreqAt s f m k e' (evs ++ q.event .fail))) := by
  rw [resumeAt_fail hq hr, setfreqAt_answered]

/-- SETFREQ comes to its prescale write: the read is answered, the sleep write done and the first
wait over (rule R174). -/
theorem setfreqAt_asleep {e0 e1 e2 : Env} {d1 d2 : Byte}
    (hr0 : s.env.respond s.cfg (.read s.devaddr s.cfg.mode1Addr) = (.ok m, e0))
    (hr1 : e0.respond s.cfg (.write s.devaddr s.cfg.mode1Addr (m ||| s.cfg.sleepMask)) =
      (.ok d1, e1))
    (hr2 : e1.respond s.cfg (.delay s.cfg.tSettleUs) = (.ok d2, e2)) :
    resumeAt (.setfreq rs f) 0 (setfreqAt s f s.oldmode 0 s.env []) =
      resumeAt (.setfreq rs f) 3 (setfreqAt s f m 3 e2
        [.read s.devaddr s.cfg.mode1Addr (some m),
         .write s.devaddr s.cfg.mode1Addr (m ||| s.cfg.sleepMask) true,
         .delay s.cfg.tSettleUs]) := by
  rw [setfreqAt_read hr0, setfreqAt_next rfl hr1 (by decide) (setfreq_more (by decide) rs f),
    setfreqAt_next rfl hr2 (by decide) (setfreq_more (by decide) rs f)]
  rfl

/-- SETFREQ comes to its wake write: the prescale write is done as well (rule R174). -/
theorem setfreqAt_prescaled {e0 e1 e2 e3 : Env} {d1 d2 d3 : Byte}
    (hr0 : s.env.respond s.cfg (.read s.devaddr s.cfg.mode1Addr) = (.ok m, e0))
    (hr1 : e0.respond s.cfg (.write s.devaddr s.cfg.mode1Addr (m ||| s.cfg.sleepMask)) =
      (.ok d1, e1))
    (hr2 : e1.respond s.cfg (.delay s.cfg.tSettleUs) = (.ok d2, e2))
    (hr3 : e2.respond s.cfg (.write s.devaddr s.cfg.prescaleAddr (prescaleByte s.cfg f)) =
      (.ok d3, e3)) :
    resumeAt (.setfreq rs f) 0 (setfreqAt s f s.oldmode 0 s.env []) =
      resumeAt (.setfreq rs f) 4 (setfreqAt s f m 4 e3
        [.read s.devaddr s.cfg.mode1Addr (some m),
         .write s.devaddr s.cfg.mode1Addr (m ||| s.cfg.sleepMask) true,
         .delay s.cfg.tSettleUs,
         .write s.devaddr s.cfg.prescaleAddr (prescaleByte s.cfg f) true]) := by
  rw [setfreqAt_asleep hr0 hr1 hr2,
    setfreqAt_next rfl hr3 (by decide) (setfreq_more (by decide) rs f)]
  rfl

/-- Where the action list of an accepted SETFREQ ends is what the command does. -/
theorem exec_setfreqAt {t : State} (hw : s.cfg.wf = true) (hf : s.fsm = .ready) (h0 : f ≠ 0)
    (h : resumeAt (.setfreq rs f) 0 (setfreqAt s f s.oldmode 0 s.env []) = some t) :
    exec (.setfreq rs f) s = .next t :=
  exec_of_resumeAt hw (setfreq_accepted hf h0) (by rw [setfreqAt_start, h])

end

/-- Settles O22: the actions before the failing one succeed, and the failure ends the command. -/
theorem setfreqStopsAtTheFirstFailure : Obligations.SetfreqStopsAtTheFirstFailure := by
  intro rs f s hw hf h0 start
  refine ⟨fun e hr => exec_setfreqAt hw hf h0 (setfreqAt_fail rfl hr),
    fun m e0 hr0 => ⟨fun e hr => ?_, fun d1 e1 d2 e2 hr1 hr2 => ⟨fun e hr => ?_, ?_⟩⟩⟩
  · rw [List.append_assoc]
    exact exec_setfreqAt hw hf h0 ((setfreqAt_read hr0).trans (setfreqAt_fail rfl hr))
  · rw [List.append_assoc, List.append_assoc]
    exact exec_setfreqAt hw hf h0 ((setfreqAt_asleep hr0 hr1 hr2).trans (setfreqAt_fail rfl hr))
  · intro d3 e3 e hr3 hr
    rw [List.append_assoc, List.append_assoc]
    exact exec_setfreqAt hw hf h0
      ((setfreqAt_prescaled hr0 hr1 hr2 hr3).trans (setfreqAt_fail rfl hr))

/-! ### The commands at the reference device -/

/-- The reference device alone answers (rules R81, R84). -/
structure Env.Alone (cfg : Config) (e : Env) : Prop where
  noScript : e.turns = []
  device : e.answering = .referenceDevice
  alone : cfg.externalMaster = false

namespace Env.Alone

variable {cfg : Config} {e : Env}

/-- It goes on alone after every answer. -/
theorem respond (h : e.Alone cfg) (q : Request) : (e.respond cfg q).2.Alone cfg := by
  cases q with
  | delay t => simpa [Env.respond, Env.respondDelay, Env.passTime, h.noScript] using h
  | claim _ | write _ _ _ | read _ _ =>
    exact ⟨by simp [Env.respond, Env.respondBus, h.noScript],
      by simp [Env.respond, Env.respondBus, h.device], h.alone⟩

/-- An `ok` of the reference device, with what it does to the device (rule R81). -/
theorem answers (h : e.Alone cfg) {q : Request} {d : Byte} {dev : Device}
    (ha : e.device.answer cfg (Config.freeByte e.drawn) q = (.ok d, dev)) :
    ∃ e', e.respond cfg q = (.ok d, e') ∧ e'.device = dev ∧ e'.Alone cfg := by
  have answer := (Env.respond_reference h.noScript h.device h.alone q).trans ha
  obtain ⟨ok, device⟩ := Prod.ext_iff.mp answer
  exact ⟨_, Prod.ext ok rfl, device, h.respond q⟩

/-- A write to the device is stored by its rule for stores. -/
theorem write (h : e.Alone cfg) (r : RegAddr) (v : Byte) :
    ∃ e', e.respond cfg (.write cfg.deviceAddr r v) = (.ok 0, e') ∧
      e'.device = e.device.store cfg r v ∧ e'.Alone cfg :=
  h.answers (by simp [Device.answer])

/-- A read answers the byte the register holds, or a free one, and changes nothing. -/
theorem read (h : e.Alone cfg) (r : RegAddr) :
    ∃ m e', e.respond cfg (.read cfg.deviceAddr r) = (.ok m, e') ∧
      (∀ m', memGet e.device.reg r.toNat = some m' → m = m') ∧
      e'.device = e.device ∧ e'.Alone cfg := by
  obtain ⟨e', hr, hd⟩ := h.answers (q := .read cfg.deviceAddr r) (dev := e.device)
    (d := (memGet e.device.reg r.toNat).getD (Config.freeByte e.drawn)) (by simp [Device.answer])
  refine ⟨_, e', hr, fun m' hm => ?_, hd⟩
  rw [hm, Option.getD_some]

/-- A wait ends and changes nothing. -/
theorem delay (h : e.Alone cfg) (t : Nat) :
    ∃ e', e.respond cfg (.delay t) = (.ok 0, e') ∧ e'.device = e.device ∧ e'.Alone cfg :=
  h.answers rfl

end Env.Alone

theorem alone_of_onReferenceDevice {s : State} (h : OnReferenceDevice s) : s.env.Alone s.cfg :=
  ⟨h.noScript, h.device, h.alone⟩

/-- Elsewhere than at PRESCALE the device holds what is written (rule R81). -/
theorem Device.store_of_ne_prescale {cfg : Config} {r : RegAddr} (h : r ≠ cfg.prescaleAddr)
    (v : Byte) (d : Device) : d.store cfg r v = { d with reg := memSet d.reg r.toNat v } :=
  if_neg fun hp => h hp.1

/-- Asleep it does so at PRESCALE, too (rule R81). -/
theorem Device.store_of_asleep {cfg : Config} {d : Device} (h : d.asleep cfg = true) (r : RegAddr)
    (v : Byte) : d.store cfg r v = { d with reg := memSet d.reg r.toNat v } :=
  if_neg fun hp => Bool.noConfusion (h.symm.trans hp.2)

/-- A device whose MODE1 has a value sleeps when the sleep bit is set (rule R81). -/
theorem Device.asleep_of_mode1 {cfg : Config} {d : Device} {m : Byte}
    (h : memGet d.reg cfg.mode1Addr.toNat = some m) :
    d.asleep cfg = (m &&& cfg.sleepMask != 0) := by
  rw [Device.asleep, h]

/-- MODE1 and PRESCALE are two registers (rule R8). -/
theorem mode1Addr_ne_prescaleAddr {cfg : Config} (hw : cfg.wf = true) :
    cfg.mode1Addr ≠ cfg.prescaleAddr := by
  obtain ⟨-, -, -, -, -, -, -, -, distinct, -⟩ := (Config.wf_iff cfg).mp hw
  simp_all

/-- Settles O31: the one write of RESET stores 0x00 in MODE1. -/
theorem resetOnTheReferenceDevice : Obligations.ResetOnTheReferenceDevice := by
  intro s h hf
  obtain ⟨e, hr, hd, -⟩ := (alone_of_onReferenceDevice h).write s.cfg.mode1Addr 0x00
  rw [← h.address] at hr
  rw [Device.store_of_ne_prescale (mode1Addr_ne_prescaleAddr h.wf)] at hd
  have accepted : refusalOf .reset s.fsm = none := by rcases hf with hf | hf <;> rw [hf] <;> rfl
  refine ⟨_, exec_of_resumeAt h.wf accepted (resumeAt_last (s := s.begin) rfl hr rfl), rfl, rfl, ?_⟩
  show memGet e.device.reg _ = _ ∧ ∀ x, x ≠ _ → memGet e.device.reg x = _
  rw [hd]
  exact ⟨memGet_memSet_same .., fun x hx => memGet_memSet_other _ _ hx⟩

/-! #### SETFREQ -/

/-- A mask of one bit is not empty (rule R8). -/
theorem sleepMask_ne_zero {cfg : Config} (hw : cfg.wf = true) : cfg.sleepMask ≠ 0 := by
  obtain ⟨-, -, -, -, ⟨k, hk, sleep⟩, -⟩ := (Config.wf_iff cfg).mp hw
  have bit : ∀ k < 8, ((1 <<< k : Nat) : Byte) ≠ 0 := by decide
  exact sleep ▸ bit k hk

/-- The two MODE1 masks have no bit in common (rule R8). -/
theorem restartMask_and_sleepMask {cfg : Config} (hw : cfg.wf = true) :
    cfg.restartMask &&& cfg.sleepMask = 0 := by
  obtain ⟨-, -, -, -, ⟨k, hk, sleep⟩, ⟨j, hj, restart⟩, differ, -⟩ := (Config.wf_iff cfg).mp hw
  have bits : ∀ k < 8, ∀ j < 8, ((1 <<< k : Nat) : Byte) ≠ ((1 <<< j : Nat) : Byte) →
      ((1 <<< j : Nat) : Byte) &&& ((1 <<< k : Nat) : Byte) = 0 := by decide
  rw [sleep, restart] at differ ⊢
  exact bits k hk j hj differ

/-- The byte of the sleep write sets the sleep bit (rule R175). -/
theorem mode1Asleep_and_sleepMask (cfg : Config) (m : Byte) :
    mode1Asleep cfg m &&& cfg.sleepMask = cfg.sleepMask := by
  ext i hi
  simpa [mode1Asleep] using .inr

/-- The byte of the wake write clears it (rule R175). -/
theorem mode1Awake_and_sleepMask (cfg : Config) (m : Byte) :
    mode1Awake cfg m &&& cfg.sleepMask = 0 := by
  ext i hi
  simp [mode1Awake]

/-- So does the byte of the restart write (rule R175). -/
theorem mode1Restarted_and_sleepMask {cfg : Config} (hw : cfg.wf = true) (m : Byte) :
    mode1Restarted cfg m &&& cfg.sleepMask = 0 := by
  rw [mode1Restarted, BitVec.and_comm, BitVec.and_or_distrib_left, BitVec.and_comm,
    mode1Awake_and_sleepMask, BitVec.and_comm, restartMask_and_sleepMask hw]
  rfl

/-- What SETFREQ makes of the device: the prescale byte `p`, MODE1 at `b`, and nothing else. -/
structure Programmed (cfg : Config) (p b : Byte) (d d' : Device) : Prop where
  violated : d'.violated = d.violated
  prescale : memGet d'.reg cfg.prescaleAddr.toNat = some p
  mode1 : memGet d'.reg cfg.mode1Addr.toNat = some b
  others : ∀ x, x ≠ cfg.prescaleAddr.toNat → x ≠ cfg.mode1Addr.toNat →
    memGet d'.reg x = memGet d.reg x

namespace Programmed

variable {cfg : Config} {p b : Byte} {d d' : Device}

/-- The sleep write puts the device to sleep, so the prescale write is stored (rule R81). -/
theorem of_stores (hw : cfg.wf = true) (m p b : Byte) (d : Device) :
    Programmed cfg p b d
      (((d.store cfg cfg.mode1Addr (mode1Asleep cfg m)).store cfg cfg.prescaleAddr p).store cfg
        cfg.mode1Addr b) := by
  have distinct := mode1Addr_ne_prescaleAddr hw
  have apart : cfg.prescaleAddr.toNat ≠ cfg.mode1Addr.toNat := fun h =>
    distinct (BitVec.eq_of_toNat_eq h.symm)
  have asleep : Device.asleep cfg
      { d with reg := memSet d.reg cfg.mode1Addr.toNat (mode1Asleep cfg m) } = true := by
    rw [Device.asleep_of_mode1 (memGet_memSet_same ..), mode1Asleep_and_sleepMask]
    simpa using sleepMask_ne_zero hw
  rw [Device.store_of_ne_prescale distinct, Device.store_of_ne_prescale distinct,
    Device.store_of_asleep asleep]
  refine ⟨rfl, ?_, memGet_memSet_same .., fun x hp h1 => ?_⟩
  · rw [memGet_memSet_other _ _ apart, memGet_memSet_same]
  · rw [memGet_memSet_other _ _ h1, memGet_memSet_other _ _ hp, memGet_memSet_other _ _ h1]

/-- A further write to MODE1. -/
theorem store_mode1 (hw : cfg.wf = true) (h : Programmed cfg p b d d') (v : Byte) :
    Programmed cfg p v d (d'.store cfg cfg.mode1Addr v) := by
  have distinct := mode1Addr_ne_prescaleAddr hw
  have apart : cfg.prescaleAddr.toNat ≠ cfg.mode1Addr.toNat := fun h =>
    distinct (BitVec.eq_of_toNat_eq h.symm)
  rw [Device.store_of_ne_prescale distinct]
  refine ⟨h.violated, ?_, memGet_memSet_same .., fun x hp h1 => ?_⟩
  · rw [memGet_memSet_other _ _ apart, h.prescale]
  · rw [memGet_memSet_other _ _ h1, h.others x hp h1]

/-- The device is awake when MODE1 has the sleep bit clear. -/
theorem awake (h : Programmed cfg p b d d') (hb : b &&& cfg.sleepMask = 0) :
    d'.asleep cfg = false := by
  rw [Device.asleep_of_mode1 h.mode1, hb]
  rfl

end Programmed

/-- The byte SETFREQ leaves in MODE1, which it read as `m` (rule R175). -/
def mode1After (cfg : Config) (rs : Bool) (m : Byte) : Byte :=
  if rs then mode1Restarted cfg m else mode1Awake cfg m

theorem mode1After_and_sleepMask {cfg : Config} (hw : cfg.wf = true) (rs : Bool) (m : Byte) :
    mode1After cfg rs m &&& cfg.sleepMask = 0 := by
  cases rs
  · exact mode1Awake_and_sleepMask cfg m
  · exact mode1Restarted_and_sleepMask hw m

/-- SETFREQ at the reference device completes and programs it. -/
theorem setfreq_programs {rs : Bool} {f : BitVec 32} {s : State} (h : OnReferenceDevice s)
    (hf : s.fsm = .ready) (h0 : f ≠ 0) :
    ∃ m k e evs, exec (.setfreq rs f) s = .next ((setfreqAt s f m k e evs).complete 0x00) ∧
      (∀ m', memGet s.env.device.reg s.cfg.mode1Addr.toNat = some m' → m = m') ∧
      Programmed s.cfg (prescaleByte s.cfg f) (mode1After s.cfg rs m) s.env.device e.device := by
  obtain ⟨m, e0, hr0, hm, hd0, a0⟩ := (alone_of_onReferenceDevice h).read s.cfg.mode1Addr
  obtain ⟨e1, hr1, hd1, a1⟩ := a0.write s.cfg.mode1Addr (mode1Asleep s.cfg m)
  obtain ⟨e2, hr2, hd2, a2⟩ := a1.delay s.cfg.tSettleUs
  obtain ⟨e3, hr3, hd3, a3⟩ := a2.write s.cfg.prescaleAddr (prescaleByte s.cfg f)
  obtain ⟨e4, hr4, hd4, a4⟩ := a3.write s.cfg.mode1Addr (mode1Awake s.cfg m)
  obtain ⟨e5, hr5, hd5, a5⟩ := a4.delay s.cfg.tSettleUs
  rw [← h.address] at hr0 hr1 hr3 hr4
  have programmed : Programmed s.cfg (prescaleByte s.cfg f) (mode1Awake s.cfg m) s.env.device
      e5.device := by
    rw [hd5, hd4, hd3, hd2, hd1, hd0]
    exact .of_stores h.wf ..
  have woken := (setfreqAt_prescaled (rs := rs) hr0 hr1 hr2 hr3).trans
    (setfreqAt_next rfl hr4 (by decide) (setfreq_more (by decide) rs f))
  cases rs with
  | false =>
    have last := woken.trans (setfreqAt_last rfl hr5 (by decide) rfl)
    exact ⟨m, _, _, _, exec_setfreqAt h.wf hf h0 last, hm, programmed⟩
  | true =>
    obtain ⟨e6, hr6, hd6, -⟩ := a5.write s.cfg.mode1Addr (mode1Restarted s.cfg m)
    rw [← h.address] at hr6
    have waited := woken.trans (setfreqAt_next rfl hr5 (by decide) (Nat.lt_succ_self 6))
    have last := waited.trans (setfreqAt_last rfl hr6 (by decide) rfl)
    exact ⟨m, _, _, _, exec_setfreqAt h.wf hf h0 last, hm,
      hd6 ▸ programmed.store_mode1 h.wf (mode1Restarted s.cfg m)⟩

/-- Settles O33: the six or seven actions succeed; the prescale write finds the device asleep. -/
theorem setfreqOnTheReferenceDevice : Obligations.SetfreqOnTheReferenceDevice := by
  intro rs f s h hf h0
  obtain ⟨m, k, e, evs, run, hm, programmed⟩ := setfreq_programs (rs := rs) h hf h0
  exact ⟨_, m, run, rfl, hf, hm, rfl,
    programmed.awake (mode1After_and_sleepMask h.wf rs m), programmed.violated,
    programmed.prescale, programmed.mode1, programmed.others⟩

/-! #### SETCH -/

/-- The two bytes of a tick make it up again (rule R62). -/
theorem tickLow_add_tickHigh (t : Tick) :
    (tickLow t).toNat + 256 * (tickHigh t).toNat = t.toNat := by
  have := t.isLt
  simp only [tickLow, tickHigh, BitVec.extractLsb'_toNat, BitVec.toNat_setWidth,
    Nat.shiftRight_eq_div_pow]
  omega

/-- SETCH at the reference device, before its action `k`. -/
structure SetchOnDevice (s₀ : State) (ch : Byte) (on off : Tick) (k : Nat) (s : State) : Prop where
  progress : SetchProgress s₀ ch on off k s
  env : s.env.Alone s₀.cfg
  fsm : s.fsm = s₀.fsm
  violated : s.env.device.violated = s₀.env.device.violated

/-- Each of its writes is answered `ok` and stored. -/
theorem SetchOnDevice.next {s₀ s : State} {ch : Byte} {on off : Tick} {k : Nat} {q : Request}
    (hs : OnReferenceDevice s₀) (hc : ch.toNat ≤ 15) (h : SetchOnDevice s₀ ch on off k s)
    (hq : actionRequest (.setch ch on off) k s = some q) :
    ∃ e, s.env.respond s.cfg q = (.ok 0, e) ∧
      SetchOnDevice s₀ ch on off (k + 1) (s.answered q (.ok 0) e).advance := by
  obtain ⟨hk, hw⟩ := Option.ite_none_right_eq_some.mp hq
  obtain ⟨e, hr, hd, alone⟩ := h.env.write (channelAddr s₀.cfg ch k) (channelByte on off k)
  rw [Device.store_of_ne_prescale (channelAddr_ne_prescale hs.wf hc hk)] at hd
  have answer : s.env.respond s.cfg q = (.ok 0, e) := by
    rw [← Option.some_injective _ hw, channelWrite, h.progress.cfg, h.progress.devaddr, hs.address]
    exact hr
  refine ⟨e, answer, h.progress.next hs.wf hs.alone hc hs.address hq answer, alone, h.fsm, ?_⟩
  show e.device.violated = _
  rw [hd]
  exact h.violated

/-- SETCH at the reference device does its four writes. -/
theorem setch_onDevice {ch : Byte} {on off : Tick} {s : State} (h : OnReferenceDevice s)
    (hf : s.fsm = .ready) (hc : ch.toNat ≤ 15) :
    ∃ u : State, exec (.setch ch on off) s = .next (u.complete 0x00) ∧
      SetchOnDevice s ch on off 4 u.advance := by
  have accepted : refusalOf (.setch ch on off) s.fsm = none := by simp [refusalOf, hf, hc]
  obtain ⟨t, he, hrun⟩ := exec_run h.wf accepted
  have start : SetchOnDevice s ch on off 0 s.begin :=
    ⟨.start, alone_of_onReferenceDevice h, rfl, rfl⟩
  obtain ⟨u, rfl, done⟩ :
      ∃ u : State, t = u.complete 0x00 ∧ SetchOnDevice s ch on off 4 u.advance := by
    refine resumeAt_induction (P := SetchOnDevice s ch on off)
      (Q := fun t => ∃ u : State, t = u.complete 0x00 ∧ SetchOnDevice s ch on off 4 u.advance)
      ?_ ?_ ?_ ?_ start hrun
    · intro k u q e hu hq hr
      obtain ⟨e', hr', -⟩ := hu.next h hc hq
      cases hr.symm.trans hr'
    · intro k u q e hu hq hr
      obtain ⟨e', hr', -⟩ := hu.next h hc hq
      cases hr.symm.trans hr'
    · intro k u q d e hu hq hr hk
      obtain ⟨e', hr', next⟩ := hu.next h hc hq
      cases hr.symm.trans hr'
      obtain rfl : k = 3 := Nat.succ_injective hk
      exact ⟨_, rfl, next⟩
    · intro k u q d e hu hq hr _
      obtain ⟨e', hr', next⟩ := hu.next h hc hq
      cases hr.symm.trans hr'
      exact next
  exact ⟨u, he, done⟩

/-- Settles O34: four writes to the four registers of the channel. -/
theorem setchOnTheReferenceDevice : Obligations.SetchOnTheReferenceDevice := by
  intro ch on off s h hf hc b
  obtain ⟨u, he, done⟩ := setch_onDevice (on := on) (off := off) h hf hc
  have written := done.progress.written
  refine ⟨_, _, _, _, _, he, rfl, done.fsm.trans hf, written 0 (by decide), written 1 (by decide),
    written 2 (by decide), written 3 (by decide), tickLow_add_tickHigh on,
    tickLow_add_tickHigh off, done.violated, fun x hx => done.progress.others x fun j hj => ?_⟩
  show x ≠ b + j
  omega

end Sys2Proof.Machine

/-! ### The device, its environment, and progress -/

namespace Sys2Proof.Machine

open Sys2Proof.Statements

/-! #### The answers of the reference device -/

namespace Env.Alone

variable {cfg : Config} {e : Env} {q : Request} {a : Answer}

/-- Every answer comes from the reference device, with what it does to the device (rule R81). -/
theorem answer_of_respond (h : e.Alone cfg) {e' : Env} (hr : e.respond cfg q = (a, e')) :
    e.device.answer cfg (Config.freeByte e.drawn) q = (a, e'.device) := by
  rw [← Env.respond_reference h.noScript h.device h.alone q, hr]

/-- Every answer of the reference device is given, `ok` or `fail` (rule R81). -/
theorem respond_of_answer (h : e.Alone cfg) {d : Device}
    (ha : e.device.answer cfg (Config.freeByte e.drawn) q = (a, d)) :
    ∃ e', e.respond cfg q = (a, e') ∧ e'.device = d := by
  have answer := h.answer_of_respond (Prod.mk.eta (p := e.respond cfg q)).symm
  obtain ⟨rfl, rfl⟩ := Prod.mk.inj (ha.symm.trans answer)
  exact ⟨_, rfl, rfl⟩

end Env.Alone

/-- The device sleeps when MODE1 has a value with the sleep bit set (rule R81). -/
theorem Device.asleep_iff {cfg : Config} {d : Device} : d.asleep cfg = true ↔
    ∃ m, memGet d.reg cfg.mode1Addr.toNat = some m ∧ m &&& cfg.sleepMask ≠ 0 := by
  unfold Device.asleep
  split <;> simp_all

/-- A prescale write outside sleep mode stores nothing and is remembered (rules R81, R82). -/
theorem Device.store_prescale_awake {cfg : Config} {d : Device} (h : d.asleep cfg = false)
    (v : Byte) : d.store cfg cfg.prescaleAddr v = { d with violated := true } :=
  if_pos ⟨rfl, h⟩

/-- Any other write stores its byte and changes nothing else (rule R81). -/
theorem Device.store_stores {cfg : Config} {r : RegAddr} {d : Device}
    (h : ¬(r = cfg.prescaleAddr ∧ d.asleep cfg = false)) (v : Byte) :
    (d.store cfg r v).violated = d.violated ∧ memGet (d.store cfg r v).reg r.toNat = some v ∧
      ∀ x, x ≠ r.toNat → memGet (d.store cfg r v).reg x = memGet d.reg x := by
  rw [Device.store, if_neg h]
  exact ⟨rfl, memGet_memSet_same .., fun _ hx => memGet_memSet_other _ _ hx⟩

/-- Settles O27: each clause is a case of the device's answer. -/
theorem referenceDeviceAnswers : Obligations.ReferenceDeviceAnswers := by
  refine ⟨⟨rfl, rfl, fun _ => rfl⟩, fun _ => rfl, fun cfg e noScript device alone => ?_⟩
  have h : e.Alone cfg := ⟨noScript, device, alone⟩
  have awake_iff : e.device.asleep cfg = false ↔
      ¬∃ m, memGet e.device.reg cfg.mode1Addr.toNat = some m ∧ m &&& cfg.sleepMask ≠ 0 := by
    rw [← Device.asleep_iff, Bool.not_eq_true]
  rw [← awake_iff]
  refine ⟨?claimHeld, ?claimFree, ?writeElsewhere, ?writeViolates, ?writeStores, ?readElsewhere,
    ?readValue, ?readFree⟩
  case claimHeld =>
    exact fun a held => h.respond_of_answer (by simp [Device.answer, held])
  case claimFree =>
    exact fun a free => ⟨0, h.respond_of_answer (by simp [Device.answer, free])⟩
  case writeElsewhere =>
    exact fun a r v ha => h.respond_of_answer (by simp [Device.answer, ha])
  case writeViolates =>
    rintro r v ⟨rfl, awake⟩
    obtain ⟨e', hr, hd, -⟩ := h.write cfg.prescaleAddr v
    exact ⟨0, e', hr, hd.trans (Device.store_prescale_awake awake v)⟩
  case writeStores =>
    intro r v hs
    obtain ⟨e', hr, hd, -⟩ := h.write r v
    refine ⟨0, e', hr, ?_⟩
    rw [hd]
    exact ⟨Device.store_claimed .., Device.store_stores hs v⟩
  case readElsewhere =>
    exact fun a r ha => h.respond_of_answer (by simp [Device.answer, ha])
  case readValue =>
    exact fun r v hv => h.respond_of_answer (by simp [Device.answer, hv])
  case readFree =>
    intro r _
    obtain ⟨m, e', hr, -, hd, -⟩ := h.read r
    exact ⟨m, e', hr, hd⟩

/-! #### WRREG and RDREG -/

/-- WRREG at the reference device completes with the answer to its one write. -/
theorem wrreg_onDevice {s : State} (h : OnReferenceDevice s) (hf : s.fsm = .ready) (r : RegAddr)
    (v : Byte) : ∃ e, exec (.wrreg r v) s =
      .next ((s.begin.answered (.write s.devaddr r v) (.ok 0) e).complete 0x00) ∧
      e.device = s.env.device.store s.cfg r v ∧ e.Alone s.cfg := by
  obtain ⟨e, hr, hd, alone⟩ := (alone_of_onReferenceDevice h).write r v
  rw [← h.address] at hr
  have accepted : refusalOf (.wrreg r v) s.fsm = none := by rw [hf]; rfl
  exact ⟨e, exec_of_resumeAt h.wf accepted (resumeAt_last (s := s.begin) rfl hr rfl), hd, alone⟩

/-- RDREG at the reference device returns the byte the register holds. -/
theorem rdreg_onDevice {s : State} (h : OnReferenceDevice s) (hf : s.fsm = .ready) {r : RegAddr}
    {v : Byte} (hv : memGet s.env.device.reg r.toNat = some v) : ∃ e, exec (.rdreg r) s =
      .next ((s.begin.answered (.read s.devaddr r) (.ok v) e).complete v) := by
  obtain ⟨m, e, hr, hm, -⟩ := (alone_of_onReferenceDevice h).read r
  obtain rfl := hm v hv
  rw [← h.address] at hr
  have accepted : refusalOf (.rdreg r) s.fsm = none := by rw [hf]; rfl
  exact ⟨e, exec_of_resumeAt h.wf accepted (resumeAt_last (s := s.begin) rfl hr rfl)⟩

/-- Settles O28: the one write is stored, or violates the prescale rule. -/
theorem wrregOnTheReferenceDevice : Obligations.WrregOnTheReferenceDevice := by
  intro r v s h hf
  obtain ⟨e, he, hd, -⟩ := wrreg_onDevice h hf r v
  refine ⟨_, he, rfl, hf, ?_⟩
  simp only [State.complete_env, State.answered]
  rw [hd]
  constructor
  · rintro rfl awake
    rw [Device.store_prescale_awake awake]
    exact ⟨rfl, fun _ => rfl⟩
  · intro hs
    exact Device.store_stores (by simpa [imp_iff_not_or] using hs) v

/-- Settles O30: the byte WRREG stored is what the register holds when RDREG reads it. -/
theorem rdregReadsBackOnTheReferenceDevice : Obligations.RdregReadsBackOnTheReferenceDevice := by
  intro r v s h hf hp
  obtain ⟨e, hwrite, hd, alone⟩ := wrreg_onDevice h hf r v
  obtain ⟨-, stored, -⟩ := Device.store_stores (d := s.env.device) (fun hs => hp hs.1) v
  have after : OnReferenceDevice
      ((s.begin.answered (.write s.devaddr r v) (.ok 0) e).complete 0x00) :=
    ⟨h.wf, alone.noScript, alone.device, h.alone, h.address⟩
  obtain ⟨e', hread⟩ := rdreg_onDevice after hf (hd ▸ stored)
  exact ⟨_, _, hwrite, hread, rfl, rfl⟩

/-! #### SETUP -/

/-- SETUP that is granted its claim goes on with the reset write (rule R155). -/
theorem setup_claimed {a : BusAddr} {s t : State} {d : Byte} {e : Env} (hw : s.cfg.wf = true)
    (hf : s.fsm = .closed) (hr : s.env.respond s.cfg (.claim a) = (.ok d, e))
    (ht : resumeAt (.setup a) 1 ((s.begin.answered (.claim a) (.ok d) e).takeHandle a).advance =
      some t) : exec (.setup a) s = .next t := by
  have accepted : refusalOf (.setup a) s.fsm = none := by rw [hf]; rfl
  refine exec_of_resumeAt hw accepted ?_
  exact (resumeAt_next (s := s.begin) rfl hr (Nat.lt_succ_self 1)).trans ht

/-- Settles O32: the claim is granted, and the bus address decides whether the reset write
succeeds. -/
theorem setupOnTheReferenceDevice : Obligations.SetupOnTheReferenceDevice := by
  intro a s hw noScript device alone hf free
  have h : s.env.Alone s.cfg := ⟨noScript, device, alone⟩
  obtain ⟨e, hclaim, held, he⟩ := h.answers (q := .claim a) (d := 0)
    (dev := { s.env.device with claimed := true }) (by simp [Device.answer, free])
  by_cases ha : a = s.cfg.deviceAddr
  · obtain ⟨e', hwrite, hd, -⟩ := he.write s.cfg.mode1Addr resetByte
    rw [← ha] at hwrite
    refine ⟨_, setup_claimed hw hf hclaim (resumeAt_last rfl hwrite rfl), rfl,
      fun elsewhere => absurd ha elsewhere, fun _ => ⟨rfl, ?_⟩⟩
    simp only [State.complete_env, onSuccess_env, State.answered]
    obtain ⟨-, stored, others⟩ := Device.store_stores (d := e.device)
      (fun hs => mode1Addr_ne_prescaleAddr hw hs.1) resetByte
    rw [hd]
    refine ⟨?_, stored, fun x hx => ?_⟩
    · rw [Device.store_claimed, held]
    · rw [others x hx, held]
  · obtain ⟨e', hwrite, hd⟩ := he.respond_of_answer
      (q := .write a s.cfg.mode1Addr resetByte) (a := .fail) (d := e.device)
      (by simp [Device.answer, ha])
    refine ⟨_, setup_claimed hw hf hclaim (resumeAt_fail rfl hwrite), rfl,
      fun _ => ⟨rfl, rfl, ?_⟩, fun own => absurd own ha⟩
    show e'.device.release = s.env.device
    rw [hd, held, Device.release, ← free]

/-! #### The prescale rule -/

/-- Only a prescale write outside sleep mode sets the violated flag (rule R82). -/
theorem Device.answer_violated {cfg : Config} {draw : Byte} {q : Request} {d : Device}
    (hq : ∀ a v, q = .write a cfg.prescaleAddr v → d.asleep cfg = true) :
    (d.answer cfg draw q).2.violated = d.violated := by
  cases q with
  | write a r v =>
    have asleep : ¬(r = cfg.prescaleAddr ∧ d.asleep cfg = false) := by
      rintro ⟨rfl, awake⟩
      cases awake.symm.trans (hq a v rfl)
    simp only [Device.answer]
    split
    · rfl
    · exact (Device.store_stores asleep v).1
  | claim _ | read _ _ | delay _ => exact (Device.answer_stores_nothing cfg draw (by simp) d).2

/-- The byte of SETFREQ's sleep write puts the device to sleep (rules R81, R175). -/
theorem Device.asleep_store_mode1Asleep {cfg : Config} (hw : cfg.wf = true) (m : Byte)
    (d : Device) : (d.store cfg cfg.mode1Addr (mode1Asleep cfg m)).asleep cfg = true := by
  rw [Device.store_of_ne_prescale (mode1Addr_ne_prescaleAddr hw),
    Device.asleep_of_mode1 (memGet_memSet_same ..), mode1Asleep_and_sleepMask]
  simpa using sleepMask_ne_zero hw

/-- Besides WRREG only action 3 of SETFREQ writes to PRESCALE (rule R174). -/
theorem actionRequest_prescale {i : Instr} {k : Nat} {s : State} {a : BusAddr} {v : Byte}
    (hw : s.cfg.wf = true) (ho : operandsOk i = true) (hi : ∀ r v, i ≠ .wrreg r v)
    (h : actionRequest i k s = some (.write a s.cfg.prescaleAddr v)) :
    k = 3 ∧ ∃ rs f, i = .setfreq rs f := by
  have mode1 {b : BusAddr} {u : Byte} : Request.write b s.cfg.mode1Addr u ≠
      .write a s.cfg.prescaleAddr v := by
    simp [mode1Addr_ne_prescaleAddr hw]
  cases i with
  | wrreg r v => exact absurd rfl (hi r v)
  | openBus _ | rdreg _ =>
    obtain ⟨-, ⟨⟩⟩ := Option.ite_none_right_eq_some.mp h
  | reset =>
    obtain ⟨-, hq⟩ := Option.ite_none_right_eq_some.mp h
    exact absurd (Option.some_injective _ hq) mode1
  | setup b =>
    simp only [actionRequest, setupRequest] at h
    split at h
    · cases h
    · exact absurd (Option.some_injective _ h) mode1
    · cases h
  | setfreq rs f =>
    refine ⟨?_, rs, f, rfl⟩
    simp only [actionRequest, setfreqRequest] at h
    split at h
    case h_4 => rfl
    case h_2 | h_5 => exact absurd (Option.some_injective _ h) mode1
    case h_7 =>
      obtain ⟨-, hq⟩ := Option.ite_none_right_eq_some.mp h
      exact absurd (Option.some_injective _ hq) mode1
    all_goals cases h
  | setch ch on off =>
    obtain ⟨hk, hq⟩ := Option.ite_none_right_eq_some.mp h
    obtain ⟨-, hr, -⟩ := Request.write.inj (Option.some_injective _ hq)
    exact absurd hr (channelAddr_ne_prescale hw (by simpa [operandsOk] using ho) hk)

/-- A failure of an action leaves the environment, but for SETUP's release (rule R156). -/
theorem onFailure_env (i : Instr) (k : Nat) (s : State) :
    (onFailure i k s).env = s.env ∨ (onFailure i k s).env = s.releaseHandle.env := by
  cases i with
  | openBus _ | wrreg _ _ | rdreg _ | reset | setch _ _ _ => exact .inl rfl
  | setup a =>
    simp only [onFailure]
    split
    · exact .inl rfl
    · exact .inr rfl
  | setfreq rs f => simp only [onFailure]; split <;> exact .inl rfl

/-- Since `s₀` the reference device alone answered, and its violated flag is as it was. -/
structure PrescaleRuleKept (s₀ s : State) : Prop where
  cfg : s.cfg = s₀.cfg
  env : s.env.Alone s₀.cfg
  violated : s.env.device.violated = s₀.env.device.violated

/-- Before action `k` of command `i` the prescale rule was kept so far, and a SETFREQ has put the
device to sleep for its prescale write (rule R174). -/
structure PrescaleRuleAt (s₀ : State) (i : Instr) (k : Nat) (s : State) : Prop where
  kept : PrescaleRuleKept s₀ s
  asleep : (∃ rs f, i = .setfreq rs f) → k = 2 ∨ k = 3 → s.env.device.asleep s₀.cfg = true

theorem PrescaleRuleKept.onFailure {s₀ s : State} (h : PrescaleRuleKept s₀ s) (i : Instr)
    (k : Nat) : PrescaleRuleKept s₀ (onFailure i k s) := by
  have cfg := (onFailure_frame i k s).1.trans h.cfg
  rcases onFailure_env i k s with he | he
  · exact ⟨cfg, he ▸ h.env, he ▸ h.violated⟩
  · exact ⟨cfg, he ▸ ⟨h.env.noScript, h.env.device, h.env.alone⟩, he ▸ h.violated⟩

namespace PrescaleRuleAt

variable {s₀ s : State} {i : Instr} {k : Nat} {q : Request} {e : Env}
variable (hw : s₀.cfg.wf = true)
include hw

/-- The prescale write finds the device asleep, and no other request sets the flag. -/
theorem answered {a : Answer} (ho : operandsOk i = true) (hi : ∀ r v, i ≠ .wrreg r v)
    (h : PrescaleRuleAt s₀ i k s) (hq : actionRequest i k s = some q)
    (hr : s.env.respond s.cfg q = (a, e)) : PrescaleRuleKept s₀ (s.answered q a e) := by
  obtain ⟨⟨cfg, env, violated⟩, asleep⟩ := h
  have prescale : ∀ b v, q = .write b s₀.cfg.prescaleAddr v →
      s.env.device.asleep s₀.cfg = true := by
    rintro b v rfl
    rw [← cfg] at hw hq
    obtain ⟨hk, hi⟩ := actionRequest_prescale hw ho hi hq
    exact asleep hi (.inr hk)
  rw [cfg] at hr
  have answer := env.answer_of_respond hr
  have alone := env.respond q
  rw [hr] at alone
  refine ⟨cfg, alone, ?_⟩
  rw [← violated, ← Device.answer_violated prescale, answer]
  rfl

/-- The sleep write, if it is answered `ok`, puts the device to sleep, and the first wait leaves it
asleep. -/
theorem asleep_next {rs : Bool} {f : BitVec 32} {d : Byte}
    (h : PrescaleRuleAt s₀ (.setfreq rs f) k s)
    (hq : actionRequest (.setfreq rs f) k s = some q) (hr : s.env.respond s.cfg q = (.ok d, e))
    (hk : k = 1 ∨ k = 2) : e.device.asleep s₀.cfg = true := by
  obtain ⟨⟨cfg, env, -⟩, asleep⟩ := h
  rw [cfg] at hr
  have answer := env.answer_of_respond hr
  rcases hk with rfl | rfl
  · obtain rfl := Option.some_injective _ hq
    simp only [sleepWrite, cfg, Device.answer] at answer
    split at answer
    · cases answer
    · rw [← (Prod.mk.inj answer).2]
      exact Device.asleep_store_mode1Asleep hw _ _
  · obtain ⟨⟩ := hq
    obtain ⟨-, same⟩ := Prod.mk.inj answer
    exact same ▸ asleep ⟨rs, f, rfl⟩ (.inl rfl)

end PrescaleRuleAt

/-- No action list but that of WRREG sets the violated flag (rule R82). -/
theorem resumeAt_keepsPrescaleRule {s₀ s t : State} {i : Instr} {k : Nat}
    (hw : s₀.cfg.wf = true) (ho : operandsOk i = true) (hi : ∀ r v, i ≠ .wrreg r v)
    (h : PrescaleRuleAt s₀ i k s) (ht : resumeAt i k s = some t) : PrescaleRuleKept s₀ t := by
  refine resumeAt_induction (P := PrescaleRuleAt s₀ i) ?_ ?_ ?_ ?_ h ht
  · intro k s q e h hq hr
    exact h.answered hw ho hi hq hr
  · intro k s q e h hq hr
    exact (h.answered hw ho hi hq hr).onFailure i k
  · intro k s q d e h hq hr _
    obtain ⟨cfg, env, violated⟩ := h.answered hw ho hi hq hr
    exact ⟨by simpa, by simpa, by simpa⟩
  · intro k s q d e h hq hr _
    obtain ⟨cfg, env, violated⟩ := h.answered hw ho hi hq hr
    refine ⟨⟨by simpa, by simpa, by simpa⟩, ?_⟩
    rintro ⟨rs, f, rfl⟩ hk
    rw [State.advance_env, onSuccess_env]
    exact h.asleep_next hw hq hr (by omega)

/-- Settles O35: a refused command asks for nothing, and an accepted one keeps the prescale rule. -/
theorem compositeCommandsKeepThePrescaleRule :
    Obligations.CompositeCommandsKeepThePrescaleRule := by
  intro i s hi hw noScript device alone
  cases hr : refusalOf i s.fsm with
  | some status => exact ⟨_, exec_refused hw hr, rfl, rfl, noScript, device⟩
  | none =>
    obtain ⟨t, he, ht⟩ := exec_run hw hr
    have start : PrescaleRuleAt s i 0 (onStart i s).begin :=
      ⟨⟨by simp, by simpa using ⟨noScript, device, alone⟩, by simp⟩, fun _ hk => by omega⟩
    obtain ⟨cfg, env, violated⟩ :=
      resumeAt_keepsPrescaleRule hw (refusalOf_none hr).2 hi start ht
    exact ⟨t, he, violated, cfg, env.noScript, env.device⟩

/-! #### No second master -/

/-- The reference device answers every request (rule R81). -/
theorem Device.answer_ne_pending (cfg : Config) (draw : Byte) (q : Request) (d : Device) :
    (d.answer cfg draw q).1 ≠ .pending := by
  cases q with
  | delay _ => exact nofun
  | claim _ | write _ _ _ | read _ _ => simp only [Device.answer]; split <;> exact nofun

section

variable {cfg : Config} (hx : cfg.externalMaster = false)
include hx

/-- Without a second master the foreign transactions a turn lists have no effect (rule R84). -/
theorem Env.respond_foreign (q : Request) (foreign : List ForeignAct) (reply : Option Reply)
    (rest : List EnvTurn) (e : Env) :
    let r := (e.withTurns (⟨foreign, reply⟩ :: rest)).respond cfg q
    let r' := (e.withTurns (⟨[], reply⟩ :: rest)).respond cfg q
    r.1 = r'.1 ∧ r.2.device = r'.2.device := by
  cases q with
  | delay t =>
    cases reply <;>
      simp [Env.withTurns, Env.respond, Env.respondDelay, Env.passTime, Device.foreign_alone hx]
  | claim _ | write _ _ _ | read _ _ =>
    simp [Env.withTurns, Env.respond, Env.respondBus, Env.nextTurn, Device.takeTurn,
      Device.foreign_alone hx]

/-- Time that passes leaves the device as it was (rule R84). -/
theorem Env.passTime_device_alone {e e' : Env} (h : e.passTime cfg = some e') :
    e'.device = e.device := by
  obtain ⟨⟨ts, hd⟩, -, -⟩ := Env.passTime_device h
  rw [hd, Device.foreign_alone hx]

/-- A request that is not answered leaves the device as it was (rules R84, R85). -/
theorem Env.device_of_pending {q : Request} {e e' : Env}
    (hr : e.respond cfg q = (.pending, e')) : e'.device = e.device := by
  cases q with
  | delay t =>
    simp only [Env.respond, Env.respondDelay] at hr
    split at hr
    · next he =>
      cases hr
      exact Env.passTime_device_alone hx he
    · cases hr
  | claim _ | write _ _ _ | read _ _ =>
    obtain ⟨hp, rfl⟩ := Prod.ext_iff.mp hr
    simp only [Env.respond, Env.respondBus, Device.takeTurn, Device.foreign_alone hx] at hp ⊢
    split at hp
    · rfl
    · exact absurd hp (Device.answer_ne_pending _ _ _ _)
    · cases hp
    · cases hp

end

/-- An idle block leaves the device as it was when there is no second master (rules R84, R240). -/
theorem State.idle_device {s : State} (hx : s.cfg.externalMaster = false) :
    s.idle.env.device = s.env.device := by
  unfold State.idle
  split
  · next he => exact Env.passTime_device_alone hx he
  · rfl

/-- Settles O36: a second master's transactions are dropped wherever the environment moves. -/
theorem noSecondMasterNoForeignTransaction : Obligations.NoSecondMasterNoForeignTransaction := by
  intro s hx
  refine ⟨fun q foreign reply rest => Env.respond_foreign hx q foreign reply rest s.env,
    fun q e hr => Env.device_of_pending hx hr,
    fun q noScript device => ⟨_, Env.respond_reference noScript device hx q⟩,
    fun t hb hh ht => ?_⟩
  obtain ⟨hw, -⟩ := step_cases ht
  cases (step_idle hw hb hh).symm.trans ht
  exact State.idle_device hx

/-! #### Progress -/

/-- An action list has an action at every index below its length (rule R27). -/
theorem actionRequest_of_lt {i : Instr} {k : Nat} (hk : k < actionCount i) (s : State) :
    ∃ q, actionRequest i k s = some q := by
  cases i with
  | openBus _ | wrreg _ _ | rdreg _ | reset => exact ⟨_, if_pos (Nat.lt_one_iff.mp hk)⟩
  | setup a =>
    replace hk : k < 2 := hk
    interval_cases k <;> exact ⟨_, rfl⟩
  | setfreq rs f =>
    cases rs with
    | false =>
      replace hk : k < 6 := hk
      interval_cases k <;> exact ⟨_, rfl⟩
    | true =>
      replace hk : k < 7 := hk
      interval_cases k <;> exact ⟨_, rfl⟩
  | setch ch on off => exact ⟨_, if_pos hk⟩

/-- A running command goes on: neither fault of log entry 15 is met. -/
theorem resume_answers {s : State} (h : s.Running) : ∃ t, resume s = .next t := by
  obtain ⟨i, hd, hk, -, -⟩ := h
  obtain ⟨q, hq⟩ := actionRequest_of_lt hk s
  obtain ⟨t, ht⟩ := resumeAt_of_request hq
  exact ⟨t, by simp only [resume, hd, ht]⟩

/-- A command under a well-formed configuration has a next state (rules R200, R213). -/
theorem exec_answers {s : State} (hw : s.cfg.wf = true) (i : Instr) : ∃ t, exec i s = .next t := by
  obtain ⟨run, he, -⟩ := exec_eq_command i s
  rw [he]
  exact State.command_answers hw _ run

/-- An accepted word has a next state, legal or not (rules R209, R213). -/
theorem runWord_answers {s : State} (hw : s.cfg.wf = true) (w : Word) :
    ∃ t, runWord w s = .next t := by
  cases hd : decode w with
  | none => exact ⟨_, runWord_illegal hd s⟩
  | some i => rw [runWord_legal hd]; exact exec_answers hw i

/-- While a command runs, a step without `rst` goes on with it (rules R30, R85). -/
theorem step_busy {s : State} (hw : s.cfg.wf = true) (hb : s.busy = true)
    (hh : ¬∃ rest, s.host = .reset :: rest) : step s = resume s := by
  simp only [step, hw, if_true, hostStep, hb]
  split
  · next rest hr => exact absurd ⟨rest, hr⟩ hh
  · rfl
  · rfl

/-- Settles O40: `rst` always has its effect, a running command goes on, and an idle block accepts a
word or waits. -/
theorem theMachineNeverStops : Obligations.TheMachineNeverStops := by
  intro s h hw
  by_cases hr : ∃ rest, s.host = .reset :: rest
  · obtain ⟨rest, hh⟩ := hr
    exact ⟨_, step_reset hw hh⟩
  cases hb : s.busy with
  | true =>
    rw [step_busy hw hb hr]
    exact resume_answers (h.running hb)
  | false =>
    cases hh : s.host with
    | nil => exact ⟨_, step_idle hw hb hh⟩
    | cons input rest =>
      cases input with
      | offer w =>
        rw [step_offer hw hb hh]
        exact runWord_answers (s := s.accept w rest) hw w
      | reset => exact absurd ⟨rest, hh⟩ hr

/-! #### The bytes of a tick -/

/-- The high byte of a tick has four bits (rule R62). -/
theorem tickHigh_lt (t : Tick) : (tickHigh t).toNat < 16 := by
  rw [tickHigh, BitVec.toNat_setWidth_of_le (by decide)]
  exact (t.extractLsb' 8 4).isLt

/-- Settles O57: the two bytes make up the tick, and the high one has four bits. -/
theorem tickBytesAreLittleEndian : Obligations.TickBytesAreLittleEndian :=
  fun t => ⟨tickLow_add_tickHigh t, tickHigh_lt t⟩

end Sys2Proof.Machine

/-! ### Encoding -/

namespace Sys2Proof

/-! #### Fields of a word -/

/-- A word with one field, whose lowest bit is bit `start`. -/
def place (start : Nat) {len : Nat} (x : BitVec len) : Word := x.setWidth 64 <<< start

theorem getLsbD_place (start : Nat) {len : Nat} (x : BitVec len) (k : Nat) :
    (place start x).getLsbD k = (decide (k < 64 ∧ start ≤ k) && x.getLsbD (k - start)) := by
  simp only [place, BitVec.getLsbD_shiftLeft, BitVec.getLsbD_setWidth]
  grind

/-- A field is read back where it was placed. -/
theorem extract_place {start len : Nat} (h : start + len ≤ 64) (x : BitVec len) :
    (place start x).extractLsb' start len = x := by
  apply BitVec.eq_of_getLsbD_eq
  intro k hk
  rw [BitVec.getLsbD_extractLsb', getLsbD_place]
  grind

/-- Nothing is read where no field was placed. -/
theorem extract_place_other {start len start' len' : Nat}
    (h : start + len ≤ start' ∨ start' + len' ≤ start) (x : BitVec len) :
    (place start x).extractLsb' start' len' = 0 := by
  apply BitVec.eq_of_getLsbD_eq
  intro k hk
  rw [BitVec.getLsbD_extractLsb', getLsbD_place]
  grind

/-- The bits `start` to `start + len - 1` of a word. -/
def fieldMask (start len : Nat) : Word := place start (BitVec.allOnes len)

/-- A field read and put back at its position is the word without its other bits. -/
theorem place_extract (w : Word) (start len : Nat) :
    place start (w.extractLsb' start len) = w &&& fieldMask start len := by
  apply BitVec.eq_of_getLsbD_eq
  intro k hk
  simp only [BitVec.getLsbD_and, fieldMask, getLsbD_place, BitVec.getLsbD_extractLsb',
    BitVec.getLsbD_allOnes]
  grind

/-- A field depends only on the bits of its mask. -/
theorem extract_and_fieldMask (w : Word) (start len : Nat) :
    (w &&& fieldMask start len).extractLsb' start len = w.extractLsb' start len := by
  apply BitVec.eq_of_getLsbD_eq
  intro k hk
  simp only [BitVec.getLsbD_extractLsb', BitVec.getLsbD_and, fieldMask, getLsbD_place,
    BitVec.getLsbD_allOnes]
  grind

/-- Two words agree in a field exactly when they agree in the bits of its mask. -/
theorem extract_eq_iff {w v : Word} {start len : Nat} :
    w.extractLsb' start len = v.extractLsb' start len ↔
      w &&& fieldMask start len = v &&& fieldMask start len := by
  constructor
  · intro h
    rw [← place_extract, h, place_extract]
  · intro h
    rw [← extract_and_fieldMask, h, extract_and_fieldMask]

/-- The bits of several fields, each given by its lowest bit and its width. -/
def fieldsMask (fs : List (Nat × Nat)) : Word :=
  fs.foldr (fun f m => fieldMask f.1 f.2 ||| m) 0

theorem and_fieldsMask_eq_zero {w : Word} {fs : List (Nat × Nat)} :
    w &&& fieldsMask fs = 0 ↔ ∀ f ∈ fs, w.extractLsb' f.1 f.2 = 0 := by
  induction fs with
  | nil => simp [fieldsMask]
  | cons f fs ih =>
    have head : w.extractLsb' f.1 f.2 = 0 ↔ w &&& fieldMask f.1 f.2 = 0 := by
      simpa using extract_eq_iff (w := w) (v := 0) (start := f.1) (len := f.2)
    have split : fieldsMask (f :: fs) = fieldMask f.1 f.2 ||| fieldsMask fs := rfl
    rw [split, BitVec.and_or_distrib_left, List.forall_mem_cons, ← ih, head]
    exact BitVec.or_eq_zero_iff

/-! #### The rows by their fields -/

/-- The must-be-zero fields of a row's format, by lowest bit and width (rules R103 to R108). -/
def Row.reserved : Row → List (Nat × Nat)
  | .rowOpen | .rowSetup => [(7, 49)]
  | .rowWrreg   => [(16, 40)]
  | .rowRdreg   => [(16, 40), (0, 8)]
  | .rowReset   => [(0, 56)]
  | .rowSetfreq => [(33, 23)]
  | .rowSetch   => [(40, 16), (28, 4), (12, 4)]

/-- The mask column of rule R109 is the opcode field and the must-be-zero fields. -/
theorem Row.mask_eq (o : Row) : o.mask = fieldMask 56 8 ||| fieldsMask o.reserved := by
  cases o <;> decide

theorem Row.pattern_and_opcode (o : Row) : o.pattern &&& fieldMask 56 8 = o.pattern := by
  cases o <;> decide

theorem Row.pattern_and_reserved (o : Row) : o.pattern &&& fieldsMask o.reserved = 0 := by
  cases o <;> decide

/-- A word selects a row exactly when it has the row's opcode and its must-be-zero fields are zero. -/
theorem Row.selects_iff {o : Row} {w : Word} :
    o.selects w = true ↔
      opcodeField w = opcodeField o.pattern ∧ ∀ f ∈ o.reserved, w.extractLsb' f.1 f.2 = 0 := by
  rw [← and_fieldsMask_eq_zero]
  constructor
  · intro h
    refine ⟨opcodeField_selects h, ?_⟩
    have masked : w &&& o.mask = o.pattern := beq_iff_eq.mp h
    have covered : o.mask &&& fieldsMask o.reserved = fieldsMask o.reserved := by
      cases o <;> decide
    rw [← covered, ← BitVec.and_assoc, masked, o.pattern_and_reserved]
  · rintro ⟨hopc, hres⟩
    have opcode : w &&& fieldMask 56 8 = o.pattern :=
      (extract_eq_iff.mp hopc).trans o.pattern_and_opcode
    rw [Row.selects, beq_iff_eq, o.mask_eq, BitVec.and_or_distrib_left, opcode, hres]
    exact BitVec.or_zero

/-- Settles O3: a selected word has the opcode of the row, and no two rows share one. -/
theorem opcodeRowsAreExclusive : Obligations.OpcodeRowsAreExclusive :=
  fun _ _ _ h h' =>
    Row.opcode_injective ((Row.opcodeField_selects h).symm.trans (Row.opcodeField_selects h'))

/-! #### Decoding what was encoded -/

/-- The encoding of a command selects the command's own row. -/
theorem selects_encode (i : Instr) : i.row.selects (encode i) = true := by
  cases i with
  | openBus a => exact Laws.OwnRow.openBus a
  | wrreg r v => exact Laws.OwnRow.wrreg r v
  | rdreg r => exact Laws.OwnRow.rdreg r
  | reset => exact Laws.OwnRow.reset
  | setup a => exact Laws.OwnRow.setup a
  | setfreq rs f => exact Laws.OwnRow.setfreq rs f
  | setch ch on off => exact Laws.OwnRow.setch ch on off

/-- Below the opcode a row's `match` is zero (rule R109). -/
theorem Row.getLsbD_pattern (o : Row) {k : Nat} (hk : k < 56) : o.pattern.getLsbD k = false := by
  have shifted : o.pattern = (opcodeField o.pattern).setWidth 64 <<< 56 := by cases o <;> decide
  rw [shifted, BitVec.getLsbD_shiftLeft]
  simp [hk]

/-- A field below the opcode is read past the `match` column. -/
theorem Row.extract_pattern_or (o : Row) (x : Word) {start len : Nat} (h : start + len ≤ 56) :
    (o.pattern ||| x).extractLsb' start len = x.extractLsb' start len := by
  apply BitVec.eq_of_getLsbD_eq
  intro k hk
  simp only [BitVec.getLsbD_extractLsb', BitVec.getLsbD_or,
    o.getLsbD_pattern (k := start + k) (by omega), Bool.false_or]

/-- The operands of a word do not depend on its opcode. -/
theorem Row.fields_pattern_or (o o' : Row) (x : Word) :
    o.fields (o'.pattern ||| x) = o.fields x := by
  cases o <;>
    simp [Row.fields, Row.extract_pattern_or, Row.getLsbD_pattern, -BitVec.getLsbD_eq_getElem]

/-- The operand bits of a command as placed fields (rules R103 to R108). -/
def Instr.placedOperands : Instr → Word
  | .openBus a | .setup a => place 0 a
  | .wrreg r v            => place 8 r ||| place 0 v
  | .rdreg r              => place 8 r
  | .reset                => 0
  | .setfreq rs f         => place 32 (BitVec.ofBool rs) ||| place 0 f
  | .setch ch on off      => place 32 ch ||| place 16 on ||| place 0 off

theorem Instr.operandBits_eq (i : Instr) : i.operandBits = i.placedOperands := by
  cases i <;> simp [Instr.operandBits, Instr.placedOperands, place]

/-- The operands of a command stand where its row reads them. -/
theorem fields_operandBits (i : Instr) : i.row.fields i.operandBits = i := by
  rw [i.operandBits_eq]
  cases i <;>
    simp [Instr.row, Row.fields, Instr.placedOperands, BitVec.extractLsb'_or, extract_place,
      extract_place_other, getLsbD_place, -BitVec.getLsbD_eq_getElem]

/-- Settles O1: the search finds the one row a word selects, and an encoded command selects its own
row and has its operands there. -/
theorem decodeOfEncodeIsTheCommand : Obligations.DecodeOfEncodeIsTheCommand := by
  refine ⟨fun w o h => decode_of_selects h, fun w h => decode_none.mpr h, fun i => ⟨rfl, ?_⟩⟩
  rw [decode_of_selects (selects_encode i), encode, Row.fields_pattern_or, fields_operandBits]

/-! #### Encoding what was decoded -/

theorem Row.row_fields (o : Row) (w : Word) : (o.fields w).row = o := by
  cases o <;> rfl

/-- The operands read from a word are all its bits outside the mask. -/
theorem Row.operandBits_fields (o : Row) (w : Word) :
    (o.fields w).operandBits = w &&& ~~~o.mask := by
  have bit (k : Nat) : BitVec.ofBool (w.getLsbD k) = w.extractLsb' k 1 := by
    ext j hj
    simp [Nat.lt_one_iff.mp hj]
  rw [Instr.operandBits_eq]
  cases o with
  | rowReset => exact BitVec.and_zero.symm
  | _ =>
    simp only [Row.fields, Instr.placedOperands, bit, place_extract, ← BitVec.and_or_distrib_left]
    exact congrArg (w &&& ·) (by decide)

/-- Settles O2: the bits inside the mask are the row's `match`, those outside are the operands. -/
theorem legalWordIsTheEncodingOfItsCommand : Obligations.LegalWordIsTheEncodingOfItsCommand := by
  intro w i h
  obtain ⟨o, ho, rfl⟩ := decode_some h
  have masked : w &&& o.mask = o.pattern := beq_iff_eq.mp ho
  calc encode (o.fields w)
      = w &&& o.mask ||| w &&& ~~~o.mask := by
        rw [encode, o.row_fields, o.operandBits_fields, masked]
    _ = w := by rw [← BitVec.and_or_distrib_left, BitVec.or_not_self, BitVec.and_allOnes]

/-! #### Illegal words -/

/-- The assigned opcodes are 0x01 to 0x07 (rules R109, R111). -/
theorem exists_row_of_opcode {c : Byte} (h : ¬(c = 0 ∨ 8 ≤ c.toNat)) :
    ∃ o : Row, opcodeField o.pattern = c := by
  obtain ⟨hc, hc8⟩ := not_or.mp h
  have assigned : c = 1 ∨ c = 2 ∨ c = 3 ∨ c = 4 ∨ c = 5 ∨ c = 6 ∨ c = 7 := by bv_omega
  rcases assigned with rfl | rfl | rfl | rfl | rfl | rfl | rfl
  · exact ⟨.rowOpen, rfl⟩
  · exact ⟨.rowWrreg, rfl⟩
  · exact ⟨.rowRdreg, rfl⟩
  · exact ⟨.rowReset, rfl⟩
  · exact ⟨.rowSetup, rfl⟩
  · exact ⟨.rowSetfreq, rfl⟩
  · exact ⟨.rowSetch, rfl⟩

/-- A word selects no row because no row has its opcode, or because the row that has it finds a
must-be-zero field set (rule R111). -/
theorem decode_none_iff {w : Word} : decode w = none ↔
    (opcodeField w = 0 ∨ 8 ≤ (opcodeField w).toNat) ∨
      ∃ o : Row, opcodeField w = opcodeField o.pattern ∧
        ∃ f ∈ o.reserved, w.extractLsb' f.1 f.2 ≠ 0 := by
  rw [decode_none]
  constructor
  · intro h
    refine or_iff_not_imp_left.mpr fun hc => ?_
    obtain ⟨o, ho⟩ := exists_row_of_opcode hc
    refine ⟨o, ho.symm, ?_⟩
    by_contra hf
    push Not at hf
    have selected : o.selects w = true := Row.selects_iff.mpr ⟨ho.symm, hf⟩
    exact absurd selected (by simp [h o])
  · intro h o
    rw [Bool.eq_false_iff, ne_eq, Row.selects_iff]
    rintro ⟨hopc, hf⟩
    rcases h with hc | ⟨o', ho', f, hfm, hne⟩
    · rw [hopc] at hc
      revert hc
      cases o <;> decide
    · obtain rfl := Row.opcode_injective (hopc.symm.trans ho')
      exact hne (hf f hfm)

/-- Some row has a property exactly when one of the seven has it (rule R109). -/
theorem Row.exists_iff {p : Row → Prop} : (∃ o, p o) ↔
    p .rowOpen ∨ p .rowWrreg ∨ p .rowRdreg ∨ p .rowReset ∨ p .rowSetup ∨ p .rowSetfreq ∨
      p .rowSetch := by
  constructor
  · rintro ⟨o, ho⟩
    cases o <;> simp [ho]
  · rintro (h | h | h | h | h | h | h) <;> exact ⟨_, h⟩

/-- Settles O4: the reserved fields of each row, written out. -/
theorem illegalWordsAreReservedOpcodesOrReservedBits :
    Obligations.IllegalWordsAreReservedOpcodesOrReservedBits := by
  intro w
  have opcode : w.extractLsb' 56 8 = opcodeField w := rfl
  have codes : opcodeField (Row.pattern .rowOpen) = 1 ∧ opcodeField (Row.pattern .rowWrreg) = 2 ∧
      opcodeField (Row.pattern .rowRdreg) = 3 ∧ opcodeField (Row.pattern .rowReset) = 4 ∧
      opcodeField (Row.pattern .rowSetup) = 5 ∧ opcodeField (Row.pattern .rowSetfreq) = 6 ∧
      opcodeField (Row.pattern .rowSetch) = 7 := by decide
  simp only [decode_none_iff, Row.exists_iff, codes, opcode, Row.reserved, List.exists_mem_cons_iff,
    List.not_mem_nil, false_and, exists_false, or_false, or_and_right]
  exact iff_of_eq (by ac_rfl)

/-- Settles O5: each word is evaluated. -/
theorem sampleWordsDecode : Obligations.SampleWordsDecode := by
  unfold Obligations.SampleWordsDecode
  decide

/-! #### The assembler -/

/-- A frequency is in range exactly when `16 * f` is a natural number below 2^32 (rule R114). -/
theorem frequencyOk_iff {digits decimals : Nat} : frequencyOk digits decimals = true ↔
    ∃ f : Nat, 16 * digits = f * 10 ^ decimals ∧ f < 2 ^ 32 := by
  have pos : 0 < 10 ^ decimals := by positivity
  simp only [frequencyOk, Bool.and_eq_true, beq_iff_eq, decide_eq_true_eq]
  constructor
  · rintro ⟨hd, hf⟩
    exact ⟨_, (Nat.div_mul_cancel (Nat.dvd_of_mod_eq_zero hd)).symm, hf⟩
  · rintro ⟨f, h, hf⟩
    rw [h, Nat.mul_mod_left, Nat.mul_div_cancel f pos]
    exact ⟨rfl, hf⟩

/-- Settles O6: a line is in range exactly when `F = 16 * f` is a number of 32 bits, and the
assembler's quotient is then that number. -/
theorem setfreqLineAssemblesExactly : Obligations.SetfreqLineAssemblesExactly := by
  intro c digits decimals rs
  have wf : (AsmLine.setfreq digits decimals rs).wf = frequencyOk digits decimals := rfl
  constructor
  · intro f h hf
    rw [assemble, wf, if_pos (frequencyOk_iff.mpr ⟨f, h, hf⟩)]
    simp only [h, Nat.mul_div_cancel f (show 0 < 10 ^ decimals by positivity)]
  · intro h
    rw [assemble, wf, if_neg]
    intro ok
    obtain ⟨f, hf, lt⟩ := frequencyOk_iff.mp ok
    exact absurd (h f hf) (Nat.not_le.mpr lt)

end Sys2Proof

namespace Sys2Proof.Machine

open Sys2Proof.Statements

/-! #### Decoded words at the command port -/

/-- Settles O8: the word stands first on the port of a block at rest, so it is accepted and runs. -/
theorem fetchedWordIsRun : Obligations.FetchedWordIsRun := by
  intro s w i hw hd
  have word : BitVec.ofNat 64 (w % 2 ^ 64) = BitVec.ofNat 64 w :=
    BitVec.eq_of_toNat_eq (by simp)
  have legal : decode (BitVec.ofNat 64 w) = some i := by
    rw [← word]
    exact hd
  have fetched : s.withFetchWord 64 w = s.offerNow (BitVec.ofNat 64 w) := congrArg s.offerNow word
  rw [fetched, step_offer (s := s.offerNow (BitVec.ofNat 64 w)) hw rfl rfl, runWord_legal legal]
  rfl

/-- A word that decodes to SETFREQ selects the row of SETFREQ (rules R107, R109). -/
theorem setfreq_fields {w : Word} {rs : Bool} {f : BitVec 32} (h : decode w = some (.setfreq rs f)) :
    f = w.extractLsb' 0 32 ∧ rs = w.getLsbD 32 ∧ opcodeField w = 0x06 := by
  obtain ⟨o, ho, hf⟩ := decode_some h
  obtain rfl : o = .rowSetfreq := by rw [← o.row_fields w, hf]; rfl
  obtain ⟨rfl, rfl⟩ := Instr.setfreq.inj hf
  exact ⟨rfl, rfl, (Row.opcodeField_selects ho).trans (by decide)⟩

/-- Settles O20: the fields of the row of SETFREQ, and its three rows in the table of checks. -/
theorem setfreqRefusals : Obligations.SetfreqRefusals := by
  intro rs f s
  refine ⟨fun w h => setfreq_fields h, fun hw => ⟨fun hf => ?_, fun hf => ?_, fun hf h0 => ?_⟩⟩
  · exact exec_refused hw (by rw [hf]; rfl)
  · exact exec_refused hw (by rw [hf]; rfl)
  · exact exec_refused hw (by rw [hf]; exact if_pos h0)

end Sys2Proof.Machine

/-! ### OPEN, WRREG and RDREG -/

namespace Sys2Proof

/-- A decoded word has the operands of its command where the command's row reads them, and the row's
opcode (rules R109, R113). -/
theorem fields_and_opcode_of_decode {w : Word} {i : Instr} {o : Row} (h : decode w = some i)
    (hrow : i.row = o) : o.fields w = i ∧ opcodeField w = opcodeField o.pattern := by
  obtain ⟨o', ho', rfl⟩ := decode_some h
  obtain rfl : o' = o := (o'.row_fields w).symm.trans hrow
  exact ⟨rfl, Row.opcodeField_selects ho'⟩

theorem openBus_fields {w : Word} {a : BusAddr} (h : decode w = some (.openBus a)) :
    a = w.extractLsb' 0 7 ∧ opcodeField w = 0x01 := by
  obtain ⟨fields, opcode⟩ := fields_and_opcode_of_decode (o := .rowOpen) h rfl
  exact ⟨(Instr.openBus.inj fields).symm, opcode.trans (by decide)⟩

theorem wrreg_fields {w : Word} {r : RegAddr} {v : Byte} (h : decode w = some (.wrreg r v)) :
    r = w.extractLsb' 8 8 ∧ v = w.extractLsb' 0 8 ∧ opcodeField w = 0x02 := by
  obtain ⟨fields, opcode⟩ := fields_and_opcode_of_decode (o := .rowWrreg) h rfl
  obtain ⟨reg, value⟩ := Instr.wrreg.inj fields
  exact ⟨reg.symm, value.symm, opcode.trans (by decide)⟩

theorem rdreg_fields {w : Word} {r : RegAddr} (h : decode w = some (.rdreg r)) :
    r = w.extractLsb' 8 8 ∧ opcodeField w = 0x03 := by
  obtain ⟨fields, opcode⟩ := fields_and_opcode_of_decode (o := .rowRdreg) h rfl
  exact ⟨(Instr.rdreg.inj fields).symm, opcode.trans (by decide)⟩

end Sys2Proof

namespace Sys2Proof.Machine

open Sys2Proof.Statements

section

variable {i : Instr} {s : State} {q : Request} {e : Env}

/-- A command of one action completes when that action succeeds (rule R30). -/
theorem exec_only_action_ok {d : Byte} (hw : s.cfg.wf = true) (hn : refusalOf i s.fsm = none)
    (hq : actionRequest i 0 s.begin = some q) (hk : actionCount i = 1)
    (hr : s.env.respond s.cfg q = (.ok d, e)) :
    exec i s = .next ((onSuccess i 0 d ((onStart i s).begin.answered q (.ok d) e)).complete
      (responseData i d)) :=
  exec_of_resumeAt hw hn <|
    resumeAt_last ((actionRequest_onStart i s).trans hq) (by simpa using hr) hk.symm

/-- A command ends when its first action fails (rule R29). -/
theorem exec_first_action_fail (hw : s.cfg.wf = true) (hn : refusalOf i s.fsm = none)
    (hq : actionRequest i 0 s.begin = some q) (hr : s.env.respond s.cfg q = (.fail, e)) :
    exec i s = .next (onFailure i 0 ((onStart i s).begin.answered q .fail e)) :=
  exec_of_resumeAt hw hn <|
    resumeAt_fail ((actionRequest_onStart i s).trans hq) (by simpa using hr)

end

/-- In OPENED the checks refuse every command but RESET (rule R131). -/
theorem refusalOf_opened_isSome {i : Instr} (h : i ≠ .reset) :
    (refusalOf i .opened).isSome = true := by
  cases i with
  | reset => exact absurd rfl h
  | _ => rfl

/-- Settles O15: the row of OPEN in the table of checks, and the two answers to its claim. -/
theorem openClaimsTheBus : Obligations.OpenClaimsTheBus := by
  intro a s
  refine ⟨fun w h => openBus_fields h, fun hw hf => exec_refused hw ?_, fun hw hf => ?_⟩
  · rcases hf with hf | hf <;> rw [hf] <;> rfl
  have passes : refusalOf (.openBus a) s.fsm = none := by rw [hf]; rfl
  refine ⟨fun d e hr => ?_, fun e hr => exec_first_action_fail hw passes rfl hr⟩
  exact ⟨_, exec_only_action_ok hw passes rfl rfl hr, rfl, rfl,
    fun i hi => refusalOf_opened_isSome hi, rfl⟩

/-- Settles O16: the row of WRREG in the table of checks, and the two answers to its write. -/
theorem wrregWritesOneRegister : Obligations.WrregWritesOneRegister := by
  intro r v s
  refine ⟨fun w h => wrreg_fields h, fun hw hf => exec_refused hw (by rw [hf]; rfl),
    fun hw hf => exec_refused hw (by rw [hf]; rfl), fun hw hf => ?_⟩
  have passes : refusalOf (.wrreg r v) s.fsm = none := by rw [hf]; rfl
  exact ⟨fun d e hr => exec_only_action_ok hw passes rfl rfl hr,
    fun e hr => exec_first_action_fail hw passes rfl hr⟩

/-- Settles O17: the row of RDREG in the table of checks, and the two answers to its read. -/
theorem rdregReturnsTheByteRead : Obligations.RdregReturnsTheByteRead := by
  intro r s
  refine ⟨fun w h => rdreg_fields h, fun hw hf => exec_refused hw (by rw [hf]; rfl),
    fun hw hf => exec_refused hw (by rw [hf]; rfl), fun hw hf => ?_⟩
  have passes : refusalOf (.rdreg r) s.fsm = none := by rw [hf]; rfl
  exact ⟨fun d e hr => exec_only_action_ok hw passes rfl rfl hr,
    fun e hr => exec_first_action_fail hw passes rfl hr⟩

end Sys2Proof.Machine

/-! ### RESET and SETUP -/

namespace Sys2Proof

theorem opcode_of_decode_reset {w : Word} (h : decode w = some .reset) : opcodeField w = 0x04 := by
  obtain ⟨-, opcode⟩ := fields_and_opcode_of_decode (o := .rowReset) h rfl
  exact opcode.trans (by decide)

theorem setup_fields {w : Word} {a : BusAddr} (h : decode w = some (.setup a)) :
    a = w.extractLsb' 0 7 ∧ opcodeField w = 0x05 := by
  obtain ⟨fields, opcode⟩ := fields_and_opcode_of_decode (o := .rowSetup) h rfl
  exact ⟨(Instr.setup.inj fields).symm, opcode.trans (by decide)⟩

end Sys2Proof

namespace Sys2Proof.Machine

open Sys2Proof.Statements

/-- The gate of RESET is a handle (rules R151, R213). -/
theorem refusalOf_reset_eq_none_iff {f : Fsm} :
    refusalOf .reset f = none ↔ f = .opened ∨ f = .ready := by
  cases f <;> simp [refusalOf]

/-- The gate of OPEN and SETUP is state CLOSED (rules R131, R155, R213). -/
theorem refusalOf_closed {i : Instr} {a : BusAddr} (hi : i = .openBus a ∨ i = .setup a) :
    refusalOf i .closed = none := by
  rcases hi with rfl | rfl <;> rfl

/-! #### The outcomes of the two commands -/

section

variable {a : BusAddr} {s : State} {d d' : Byte} {e e' : Env} (hw : s.cfg.wf = true)
include hw

theorem exec_reset_ok (hf : s.fsm = .opened ∨ s.fsm = .ready)
    (hr : s.env.respond s.cfg (.write s.devaddr s.cfg.mode1Addr 0x00) = (.ok d, e)) :
    exec .reset s = .next (ended { s with
      env := e, fsm := .ready
      trace := s.trace ++ [.write s.devaddr s.cfg.mode1Addr 0x00 true] } .ok 0x00) :=
  exec_only_action_ok hw (refusalOf_reset_eq_none_iff.mpr hf) rfl rfl hr

theorem exec_reset_fail (hf : s.fsm = .opened ∨ s.fsm = .ready)
    (hr : s.env.respond s.cfg (.write s.devaddr s.cfg.mode1Addr 0x00) = (.fail, e)) :
    exec .reset s = .next (ended { s with
      env := e, fsm := .opened
      trace := s.trace ++ [.write s.devaddr s.cfg.mode1Addr 0x00 false] } .resetFailed 0x00) :=
  exec_first_action_fail hw (refusalOf_reset_eq_none_iff.mpr hf) rfl hr

variable (hf : s.fsm = .closed)
include hf

theorem exec_openBus_ok (hr : s.env.respond s.cfg (.claim a) = (.ok d, e)) :
    exec (.openBus a) s = .next (ended { s with
      env := e, devaddr := a, fsm := .opened, trace := s.trace ++ [.claim a true] } .ok 0x00) :=
  exec_only_action_ok hw (hf ▸ refusalOf_closed (.inl rfl)) rfl rfl hr

theorem exec_openBus_fail (hr : s.env.respond s.cfg (.claim a) = (.fail, e)) :
    exec (.openBus a) s = .next (ended { s with
      env := e, trace := s.trace ++ [.claim a false] } .busOpenFailed 0x00) :=
  exec_first_action_fail hw (hf ▸ refusalOf_closed (.inl rfl)) rfl hr

/-- A refused claim ends SETUP in FATAL (rule R156). -/
theorem exec_setup_claim_fail (hr : s.env.respond s.cfg (.claim a) = (.fail, e)) :
    exec (.setup a) s = .next (ended { s with
      env := e, fsm := .fatal, fatalCode := .busOpenFailed
      trace := s.trace ++ [.claim a false] } .busOpenFailed 0x00) :=
  exec_first_action_fail hw (hf ▸ refusalOf_closed (.inr rfl)) rfl hr

variable (hc : s.env.respond s.cfg (.claim a) = (.ok d, e))
include hc

theorem exec_setup_ok (hr : e.respond s.cfg (.write a s.cfg.mode1Addr 0x00) = (.ok d', e')) :
    exec (.setup a) s = .next (ended { s with
      env := e', fsm := .ready, devaddr := a
      trace := s.trace ++ [.claim a true, .write a s.cfg.mode1Addr 0x00 true] } .ok 0x00) := by
  rw [setup_claimed hw hf hc (resumeAt_last rfl hr rfl), List.append_cons]
  rfl

/-- A failed reset write ends SETUP in FATAL, and the address is given up (rule R156). -/
theorem exec_setup_reset_fail
    (hr : e.respond s.cfg (.write a s.cfg.mode1Addr 0x00) = (.fail, e')) :
    exec (.setup a) s = .next (ended { s with
      env := { e' with device := { e'.device with claimed := false } }
      fsm := .fatal, fatalCode := .resetFailed, devaddr := a
      trace := s.trace ++ [.claim a true, .write a s.cfg.mode1Addr 0x00 false, .release a] }
      .resetFailed 0x00) := by
  rw [setup_claimed hw hf hc (resumeAt_fail rfl hr), List.append_cons, List.append_cons]
  rfl

end

/-- Settles O18: the gate of RESET in the table of checks, and the two answers to its write. -/
theorem resetWritesMode1 : Obligations.ResetWritesMode1 := by
  intro s
  refine ⟨fun w h => opcode_of_decode_reset h,
    fun hw hf => exec_refused hw (by rw [hf]; rfl), fun hw hf => ⟨fun d e hr => ?_, fun e hr => ?_⟩⟩
  · exact ⟨_, exec_reset_ok hw hf hr, rfl, rfl, rfl⟩
  · exact ⟨_, exec_reset_fail hw hf hr, rfl, rfl, rfl⟩

/-- Settles O19: the gate of SETUP in the table of checks, a refused claim, and the two answers to
the reset write after a granted one. -/
theorem setupClaimsThenResets : Obligations.SetupClaimsThenResets := by
  intro a s
  refine ⟨fun w h => setup_fields h, fun hw hf => exec_refused hw ?_,
    fun hw hf => ⟨fun e hr => ?_, fun d e d' e' hc hr => ?_, fun d e e' hc hr => ?_⟩⟩
  · rcases hf with hf | hf <;> rw [hf] <;> rfl
  · exact ⟨_, exec_setup_claim_fail hw hf hr, rfl, rfl, rfl, rfl⟩
  · exact ⟨_, exec_setup_ok hw hf hc hr, rfl, rfl, rfl⟩
  · exact ⟨_, exec_setup_reset_fail hw hf hc hr, rfl, rfl, rfl, rfl⟩

/-- Settles O26: OPEN leaves the state in which the reset write of SETUP is done, so RESET asks the
same environment for the same write. -/
theorem setupIsOpenThenReset : Obligations.SetupIsOpenThenReset := by
  intro a s hw hf
  refine ⟨fun d d' e e' hc hr => ?_, fun e hc => ?_, fun d e e' hc hr => ?_⟩
  · refine ⟨_, _, _, exec_setup_ok hw hf hc hr, exec_openBus_ok hw hf hc,
      exec_reset_ok hw (.inl rfl) hr, rfl, rfl, rfl, ?_⟩
    simp
  · exact ⟨_, _, exec_setup_claim_fail hw hf hc, exec_openBus_fail hw hf hc, rfl, rfl, hf,
      hf ▸ refusalOf_closed (.inl rfl)⟩
  · have held : e'.device.claimed = true :=
      (Env.claimed_of_respond hr (.inl fun _ => nofun)).trans (Env.claimed_of_respond_ok hc)
    refine ⟨_, _, _, exec_setup_reset_fail hw hf hc hr, exec_openBus_ok hw hf hc,
      exec_reset_fail hw (.inl rfl) hr, ?_, rfl, rfl, rfl, held,
      refusalOf_reset_eq_none_iff.mpr (.inl rfl)⟩
    simp

/-! #### What initialization does on the bus -/

/-- RESET and SETUP, the initialization commands. -/
def Initializes (i : Instr) : Prop := i = .reset ∨ ∃ a, i = .setup a

/-- A write of 0x00 to MODE1, a claim or a release (rules R150, R156). -/
def InitEvent (cfg : Config) (ev : Event) : Prop :=
  (∃ a ok, ev = .write a cfg.mode1Addr 0x00 ok) ∨ (∃ a ok, ev = .claim a ok) ∨ ∃ a, ev = .release a

/-- Initialization claims, or writes 0x00 to MODE1 (rules R150, R151, R155). -/
theorem actionRequest_initializes {i : Instr} {k : Nat} {s : State} {q : Request}
    (hi : Initializes i) (h : actionRequest i k s = some q) :
    (∃ a, q = .claim a) ∨ q = .write s.devaddr s.cfg.mode1Addr 0x00 := by
  rcases hi with rfl | ⟨a, rfl⟩
  · obtain ⟨-, ⟨⟩⟩ := Option.ite_none_right_eq_some.mp h
    exact .inr rfl
  · simp only [actionRequest, setupRequest] at h
    split at h <;> cases h
    · exact .inl ⟨a, rfl⟩
    · exact .inr rfl

theorem initEvent_of_request {i : Instr} {k : Nat} {s : State} {q : Request} {a : Answer}
    (hi : Initializes i) (h : actionRequest i k s = some q) :
    ∀ ev ∈ q.event a, InitEvent s.cfg ev := by
  rcases actionRequest_initializes hi h with ⟨b, rfl⟩ | rfl
  · cases a <;> simp [Request.event, InitEvent]
  · cases a <;> simp [Request.event, InitEvent]

/-- From `s₀` to `s` the trace grew by events of initialization only. -/
structure InitializedSince (s₀ s : State) : Prop where
  cfg : s.cfg = s₀.cfg
  trace : ∃ evs, s.trace = s₀.trace ++ evs ∧ ∀ ev ∈ evs, InitEvent s₀.cfg ev

namespace InitializedSince

variable {s₀ s s' : State} {i : Instr} {k : Nat} {q : Request}

theorem refl (cfg : s.cfg = s₀.cfg) (trace : s.trace = s₀.trace) : InitializedSince s₀ s :=
  ⟨cfg, [], by rw [trace, List.append_nil], by simp⟩

theorem append (h : InitializedSince s₀ s) {more : List Event} (cfg : s'.cfg = s.cfg)
    (trace : s'.trace = s.trace ++ more) (hm : ∀ ev ∈ more, InitEvent s.cfg ev) :
    InitializedSince s₀ s' := by
  obtain ⟨evs, grew, hevs⟩ := h.trace
  refine ⟨cfg.trans h.cfg, evs ++ more, by rw [trace, grew, List.append_assoc], fun ev hev => ?_⟩
  rcases List.mem_append.mp hev with hev | hev
  · exact hevs ev hev
  · exact h.cfg ▸ hm ev hev

/-- Only `cfg` and `trace` matter. -/
theorem congr (h : InitializedSince s₀ s) (cfg : s'.cfg = s.cfg) (trace : s'.trace = s.trace) :
    InitializedSince s₀ s' :=
  h.append (more := []) cfg (by rw [trace, List.append_nil]) (by simp)

theorem answered (h : InitializedSince s₀ s) (hi : Initializes i)
    (hq : actionRequest i k s = some q) (a : Answer) (e : Env) :
    InitializedSince s₀ (s.answered q a e) :=
  h.append rfl rfl (initEvent_of_request hi hq)

/-- A failure adds a release at most. -/
theorem onFailure (h : InitializedSince s₀ s) (i : Instr) (k : Nat) :
    InitializedSince s₀ (onFailure i k s) := by
  obtain ⟨cfg, -, ht | ⟨-, ht⟩⟩ := onFailure_frame i k s
  · exact h.congr cfg ht
  · exact h.append cfg ht (by simp [InitEvent])

theorem onSuccess (h : InitializedSince s₀ s) (i : Instr) (k : Nat) (d : Byte) :
    InitializedSince s₀ (onSuccess i k d s) :=
  h.congr (onSuccess_cfg ..) (onSuccess_trace ..)

theorem resumeAt {t : State} (h : InitializedSince s₀ s) (hi : Initializes i)
    (he : resumeAt i k s = some t) : InitializedSince s₀ t :=
  resumeAt_induction (P := fun _ => InitializedSince s₀)
    (fun _ _ _ e h hq _ => h.answered hi hq .pending e)
    (fun k _ _ e h hq _ => (h.answered hi hq .fail e).onFailure i k)
    (fun k _ _ d e h hq _ _ => ((h.answered hi hq (.ok d) e).onSuccess i k d).congr rfl rfl)
    (fun k _ _ d e h hq _ _ => ((h.answered hi hq (.ok d) e).onSuccess i k d).congr rfl rfl) h he

theorem exec {t : State} (hi : Initializes i) (he : exec i s = .next t) :
    InitializedSince s t := by
  obtain ⟨-, ⟨status, -, rfl⟩ | ⟨-, hs⟩⟩ := exec_cases he
  · exact refl rfl rfl
  · exact (refl (s := (onStart i s).begin) (by simp) (by simp)).resumeAt hi hs

/-- A step of a running command cuts it short or goes on with it (rules R27, R242). -/
theorem step {t : State} (hi : Initializes i) (hb : s.busy = true) (hd : decode s.cmd = some i)
    (ht : step s = .next t) : InitializedSince s t := by
  obtain ⟨-, ⟨rest, -, rfl⟩ | ⟨-, -, hr⟩ | ⟨idle, -⟩ | ⟨idle, -⟩⟩ := step_cases ht
  · exact refl rfl rfl
  · obtain ⟨j, hj, he⟩ := resume_next hr
    obtain rfl : j = i := Option.some_injective _ (hj.symm.trans hd)
    exact (refl rfl rfl).resumeAt hi he
  · exact absurd (idle.symm.trans hb) Bool.false_ne_true
  · exact absurd (idle.symm.trans hb) Bool.false_ne_true

end InitializedSince

/-- Settles O49: every event of RESET and SETUP is that of one of their requests, or the release. -/
theorem initializationWritesOnlyZeroToMode1 :
    Obligations.InitializationWritesOnlyZeroToMode1 := by
  intro i s t hi h
  obtain ⟨-, evs, grew, hevs⟩ : InitializedSince s t := by
    rcases h with he | ⟨hb, hd, ht⟩
    · exact .exec hi he
    · exact .step hi hb hd ht
  rw [addedEvents, grew, List.drop_left]
  exact hevs

end Sys2Proof.Machine

/-! ### SETFREQ and SETCH, every action answered -/

namespace Sys2Proof

theorem setch_fields {w : Word} {ch : Byte} {on off : Tick}
    (h : decode w = some (.setch ch on off)) :
    ch = w.extractLsb' 32 8 ∧ on = w.extractLsb' 16 12 ∧ off = w.extractLsb' 0 12 ∧
      opcodeField w = 0x07 := by
  obtain ⟨fields, opcode⟩ := fields_and_opcode_of_decode (o := .rowSetch) h rfl
  obtain ⟨channel, onTick, offTick⟩ := Instr.setch.inj fields
  exact ⟨channel.symm, onTick.symm, offTick.symm, opcode.trans (by decide)⟩

end Sys2Proof

namespace Sys2Proof.Machine

open Sys2Proof.Statements

/-! #### SETFREQ to its end -/

/-- SETFREQ comes to its second wait: the wake write is done as well (rule R174). -/
theorem setfreqAt_woken {rs : Bool} {f : BitVec 32} {s : State} {m d1 d2 d3 d4 : Byte}
    {e0 e1 e2 e3 e4 : Env}
    (hr0 : s.env.respond s.cfg (.read s.devaddr s.cfg.mode1Addr) = (.ok m, e0))
    (hr1 : e0.respond s.cfg (.write s.devaddr s.cfg.mode1Addr (m ||| s.cfg.sleepMask)) =
      (.ok d1, e1))
    (hr2 : e1.respond s.cfg (.delay s.cfg.tSettleUs) = (.ok d2, e2))
    (hr3 : e2.respond s.cfg (.write s.devaddr s.cfg.prescaleAddr (prescaleByte s.cfg f)) =
      (.ok d3, e3))
    (hr4 : e3.respond s.cfg (.write s.devaddr s.cfg.mode1Addr (m &&& ~~~s.cfg.sleepMask)) =
      (.ok d4, e4)) :
    resumeAt (.setfreq rs f) 0 (setfreqAt s f s.oldmode 0 s.env []) =
      resumeAt (.setfreq rs f) 5 (setfreqAt s f m 5 e4
        [.read s.devaddr s.cfg.mode1Addr (some m),
         .write s.devaddr s.cfg.mode1Addr (m ||| s.cfg.sleepMask) true,
         .delay s.cfg.tSettleUs,
         .write s.devaddr s.cfg.prescaleAddr (prescaleByte s.cfg f) true,
         .write s.devaddr s.cfg.mode1Addr (m &&& ~~~s.cfg.sleepMask) true]) := by
  rw [setfreqAt_prescaled hr0 hr1 hr2 hr3,
    setfreqAt_next rfl hr4 (by decide) (setfreq_more (by decide) rs f)]
  rfl

/-- Settles O21: after the wake write the second wait is the last action, or the restart write
follows it, whose answer ends the command. -/
theorem setfreqRunsTheSixSteps : Obligations.SetfreqRunsTheSixSteps := by
  intro rs f s m d1 d2 d3 d4 d5 e0 e1 e2 e3 e4 e5 hw hf h0 hr0 hr1 hr2 hr3 hr4 hr5 six after
  have woken := setfreqAt_woken (rs := rs) hr0 hr1 hr2 hr3 hr4
  refine ⟨?_, ?_⟩
  · rintro rfl
    exact exec_setfreqAt hw hf h0 (woken.trans (setfreqAt_last rfl hr5 (by decide) rfl))
  · rintro rfl v
    have waited := woken.trans (setfreqAt_next rfl hr5 (by decide) (Nat.lt_succ_self 6))
    refine ⟨fun d6 e6 hr6 => ?_, fun e6 hr6 => ?_⟩
    · rw [List.append_assoc]
      exact exec_setfreqAt hw hf h0 (waited.trans (setfreqAt_last rfl hr6 (by decide) rfl))
    · rw [List.append_assoc]
      exact exec_setfreqAt hw hf h0 (waited.trans (setfreqAt_fail rfl hr6))

/-! #### SETCH to its end -/

/-- The address of byte `k` of a channel, computed in the width of an address (rule R69). -/
theorem channelAddr_eq_add (cfg : Config) (ch : Byte) (k : Nat) :
    channelAddr cfg ch k = cfg.chBaseAddr + 4 * ch + BitVec.ofNat 8 k := by
  simp [channelAddr, channelAddrNat, BitVec.ofNat_add, BitVec.ofNat_mul]

/-- The high byte of a tick is its high nibble under four zeros (rule R62). -/
theorem tickHigh_eq_append (t : Tick) : tickHigh t = 0#4 ++ t.extractLsb' 8 4 :=
  (BitVec.setWidth_eq_append (by decide)).trans (BitVec.cast_eq rfl _)

/-- SETCH action `k` writes the byte it has there to its register (rule R181). -/
theorem channelWrite_eq {ch : Byte} {on off : Tick} {k : Nat} {v : Byte}
    (hv : channelByte on off k = v) (s : State) : channelWrite ch on off k s =
      .write s.devaddr (s.cfg.chBaseAddr + 4 * ch + BitVec.ofNat 8 k) v := by
  rw [channelWrite, channelAddr_eq_add, hv]

/-- A SETCH that was accepted in `s`, before its action `k`: the events `evs` came, and the
environment is `e` (rule R27). -/
def setchAt (s : State) (k : Nat) (e : Env) (evs : List Event) : State :=
  { s with busy := true, step := BitVec.ofNat 3 k, env := e, trace := s.trace ++ evs }

section

variable {ch : Byte} {on off : Tick} {s : State} {k : Nat} {e e' : Env} {evs : List Event}
  {q : Request} {d : Byte}

theorem setchAt_start :
    (onStart (.setch ch on off) s).begin = setchAt s 0 s.env [] := by
  simp [setchAt, onStart, State.begin]

theorem setchAt_answered (a : Answer) :
    (setchAt s k e evs).answered q a e' = setchAt s k e' (evs ++ q.event a) := by
  simp [setchAt, State.answered]

theorem setchAt_advance : (setchAt s k e evs).advance = setchAt s (k + 1) e evs := by
  simp [setchAt, State.advance, BitVec.ofNat_add]

/-- Where the action list of an accepted SETCH ends is what the command does. -/
theorem exec_setchAt {t : State} (hw : s.cfg.wf = true) (hf : s.fsm = .ready)
    (hc : ch.toNat ≤ 15)
    (h : resumeAt (.setch ch on off) 0 (setchAt s 0 s.env []) = some t) :
    exec (.setch ch on off) s = .next t :=
  exec_of_resumeAt hw (by simp [refusalOf, hf, hc]) (by rw [setchAt_start, h])

variable (hk : k < 4) (hq : channelWrite ch on off k s = q)
include hk hq

theorem setchAt_request :
    actionRequest (.setch ch on off) k (setchAt s k e evs) = some q :=
  (if_pos hk).trans (congrArg some hq)

/-- A write that fails ends the command (rule R182). -/
theorem setchAt_fail (hr : e.respond s.cfg q = (.fail, e')) :
    resumeAt (.setch ch on off) k (setchAt s k e evs) =
      some ((setchAt s k e' (evs ++ q.event .fail)).raise .busWriteFailed) := by
  rw [resumeAt_fail (setchAt_request hk hq) hr, setchAt_answered]
  rfl

variable (hr : e.respond s.cfg q = (.ok d, e'))
include hr

/-- A write before the last is followed by the next (rule R181). -/
theorem setchAt_next (hm : k < 3) :
    resumeAt (.setch ch on off) k (setchAt s k e evs) =
      resumeAt (.setch ch on off) (k + 1) (setchAt s (k + 1) e' (evs ++ q.event (.ok d))) := by
  rw [resumeAt_next (setchAt_request hk hq) hr (Nat.succ_lt_succ hm), onSuccess,
    setchAt_answered, setchAt_advance]

/-- The last write completes the command (rule R181). -/
theorem setchAt_last (hm : k = 3) :
    resumeAt (.setch ch on off) k (setchAt s k e evs) =
      some ((setchAt s k e' (evs ++ q.event (.ok d))).complete 0x00) := by
  rw [resumeAt_last (setchAt_request hk hq) hr (congrArg Nat.succ hm), onSuccess,
    setchAt_answered]
  rfl

end

/-- Settles O23: the fields of the row of SETCH, its rows in the table of checks, and its writes,
each of which fails or hands over to the next. -/
theorem setchWritesFourRegisters : Obligations.SetchWritesFourRegisters := by
  intro ch on off s
  refine ⟨fun w h => setch_fields h, fun hw hf => exec_refused hw (by rw [hf]; rfl),
    fun hw hf => exec_refused hw (by rw [hf]; rfl),
    fun hw hf hc => exec_refused hw (by rw [hf]; exact if_pos hc), fun hw hf hc => ?_⟩
  intro b w0 w1 w2 w3 q0 q1 q2 q3
  have r0 : channelWrite ch on off 0 s = q0 := by
    rw [channelWrite_eq rfl, BitVec.add_zero]
    rfl
  have r1 : channelWrite ch on off 1 s = q1 := channelWrite_eq (k := 1) (tickHigh_eq_append on) s
  have r2 : channelWrite ch on off 2 s = q2 := channelWrite_eq rfl s
  have r3 : channelWrite ch on off 3 s = q3 :=
    channelWrite_eq (k := 3) (tickHigh_eq_append off) s
  have run {t : State} := exec_setchAt (t := t) (on := on) (off := off) hw hf hc
  refine ⟨fun e hr => run (setchAt_fail (by decide) r0 hr), fun d0 e0 hr0 => ?_⟩
  have done0 := setchAt_next (evs := []) (by decide) r0 hr0 (by decide)
  refine ⟨fun e hr => run (done0.trans (setchAt_fail (by decide) r1 hr)), fun d1 e1 hr1 => ?_⟩
  have done1 := done0.trans (setchAt_next (by decide) r1 hr1 (by decide))
  refine ⟨fun e hr => run (done1.trans (setchAt_fail (by decide) r2 hr)), fun d2 e2 hr2 => ?_⟩
  have done2 := done1.trans (setchAt_next (by decide) r2 hr2 (by decide))
  exact ⟨fun e hr => run (done2.trans (setchAt_fail (by decide) r3 hr)),
    fun d3 e3 hr3 => run (done2.trans (setchAt_last (by decide) r3 hr3 rfl))⟩

/-! #### The bytes for MODE1 -/

section

variable (cfg : Config) (m : Byte)

/-- The sleep write keeps the bits other than the sleep bit (rule R175). -/
theorem mode1Asleep_and_not_sleepMask :
    mode1Asleep cfg m &&& ~~~cfg.sleepMask = m &&& ~~~cfg.sleepMask := by
  ext i hi
  simp [mode1Asleep, Bool.and_or_distrib_right]

/-- So does the wake write (rule R175). -/
theorem mode1Awake_and_not_sleepMask :
    mode1Awake cfg m &&& ~~~cfg.sleepMask = m &&& ~~~cfg.sleepMask := by
  rw [mode1Awake, BitVec.and_assoc, BitVec.and_self]

/-- The restart write sets the restart bit (rule R175). -/
theorem mode1Restarted_and_restartMask :
    mode1Restarted cfg m &&& cfg.restartMask = cfg.restartMask := by
  ext i hi
  simpa [mode1Restarted] using .inr

/-- The restart write keeps the bits other than the two (rule R175). -/
theorem mode1Restarted_and_not_masks :
    mode1Restarted cfg m &&& ~~~(cfg.sleepMask ||| cfg.restartMask) =
      m &&& ~~~(cfg.sleepMask ||| cfg.restartMask) := by
  ext i hi
  cases h : cfg.restartMask[i] with
  | true => simp [h]
  | false => simp [mode1Restarted, mode1Awake, h]

end

/-- Settles O58: each of the three bytes on its mask and beside it. -/
theorem mode1BytesKeepTheOtherBits : Obligations.Mode1BytesKeepTheOtherBits := fun cfg m hw =>
  ⟨mode1Asleep_and_sleepMask cfg m, mode1Asleep_and_not_sleepMask cfg m,
    mode1Awake_and_sleepMask cfg m, mode1Awake_and_not_sleepMask cfg m,
    mode1Restarted_and_sleepMask hw m, mode1Restarted_and_restartMask cfg m,
    mode1Restarted_and_not_masks cfg m⟩

/-! #### The prescale byte -/

/-- What rule R172 rounds down, as one fraction. -/
theorem ratio_add_half (osc : Nat) {f : Nat} (h0 : 0 < f) :
    (osc : ℚ) / (4096 * ((f : ℚ) / 16)) + 1 / 2 =
      ((osc + 128 * f : ℕ) : ℚ) / ((256 * f : ℕ) : ℚ) := by
  have nonzero : (f : ℚ) ≠ 0 := by exact_mod_cast h0.ne'
  push_cast
  field_simp
  ring

/-- Rounding to the nearest integer with a tie going up is rounding down after adding one half
(rule R172). -/
theorem prescaleQuotient_eq_floor (osc : Nat) {f : Nat} (h0 : 0 < f) :
    prescaleQuotient osc f = ⌊(osc : ℚ) / (4096 * ((f : ℚ) / 16)) + 1 / 2⌋₊ := by
  rw [ratio_add_half osc h0, Nat.floor_div_eq_div, prescaleQuotient]

theorem prescaleQuotient_le (osc : Nat) {f : Nat} (h0 : 0 < f) :
    (prescaleQuotient osc f : ℚ) ≤ (osc : ℚ) / (4096 * ((f : ℚ) / 16)) + 1 / 2 := by
  rw [prescaleQuotient_eq_floor osc h0]
  exact Nat.floor_le (by positivity)

theorem lt_prescaleQuotient_add_one (osc : Nat) {f : Nat} (h0 : 0 < f) :
    (osc : ℚ) / (4096 * ((f : ℚ) / 16)) + 1 / 2 < (prescaleQuotient osc f : ℚ) + 1 := by
  rw [prescaleQuotient_eq_floor osc h0]
  exact Nat.lt_floor_add_one _

/-- With the default oscillator no frequency is a tie: 50 000 000 is no multiple of 2^8 (rule
R172). -/
theorem no_tie_at_default_oscillator (q : Nat) {f : Nat} (h0 : 0 < f) :
    (q : ℚ) ≠ ((25000000 : ℕ) : ℚ) / (4096 * ((f : ℚ) / 16)) + 1 / 2 := by
  intro tie
  rw [ratio_add_half _ h0, eq_div_iff (by exact_mod_cast (by omega : 256 * f ≠ 0))] at tie
  have tie : q * (256 * f) = 25000000 + 128 * f := by exact_mod_cast tie
  rw [Nat.mul_left_comm] at tie
  omega

section

variable {cfg : Config} {f : BitVec 32}

theorem prescaleByte_of_lt (h : prescaleUnclamped cfg.oscClockHz f.toNat < cfg.prescaleMin.toNat) :
    prescaleByte cfg f = cfg.prescaleMin := if_pos h

theorem prescaleByte_of_gt (hw : cfg.wf = true)
    (h : (cfg.prescaleMax.toNat : Int) < prescaleUnclamped cfg.oscClockHz f.toNat) :
    prescaleByte cfg f = cfg.prescaleMax := by
  obtain ⟨-, -, range, -⟩ := (Config.wf_iff cfg).mp hw
  exact (if_neg (by omega)).trans (if_pos h)

/-- Where the clamp does not act the byte is `p` (rule R172). -/
theorem prescaleByte_toNat
    (hl : (cfg.prescaleMin.toNat : Int) ≤ prescaleUnclamped cfg.oscClockHz f.toNat)
    (hu : prescaleUnclamped cfg.oscClockHz f.toNat ≤ cfg.prescaleMax.toNat) :
    ((prescaleByte cfg f).toNat : Int) = prescaleUnclamped cfg.oscClockHz f.toNat := by
  have byte : prescaleByte cfg f =
      BitVec.ofNat 8 (prescaleUnclamped cfg.oscClockHz f.toNat).toNat :=
    (if_neg hl.not_gt).trans (if_neg hu.not_gt)
  have := cfg.prescaleMax.isLt
  rw [byte, BitVec.toNat_ofNat]
  omega

end

theorem toNat_pos_of_ne_zero {f : BitVec 32} (h : f ≠ 0) : 0 < f.toNat := by bv_omega

/-- Settles O53: `q` is the floor of the ratio plus one half, and the byte is `q - 1` clamped. -/
theorem prescaleByteIsRoundedAndClamped : Obligations.PrescaleByteIsRoundedAndClamped := by
  intro cfg f hw hf
  have h0 := toNat_pos_of_ne_zero hf
  refine ⟨prescaleQuotient cfg.oscClockHz f.toNat, rfl, prescaleQuotient_le _ h0,
    lt_prescaleQuotient_add_one _ h0, prescaleByte_of_lt, prescaleByte_of_gt hw,
    prescaleByte_toNat, fun osc => ?_⟩
  rw [osc]
  exact no_tie_at_default_oscillator _ h0

/-! #### The frequency the device produces -/

/-- The relative error of a frequency is that of the rounded ratio (rule R173). -/
theorem relative_error_eq {osc f q : ℚ} (hf : 0 < f) (hq : 0 < q) :
    |osc / (4096 * q) - f / 16| / (f / 16) = |osc / (4096 * (f / 16)) - q| / q := by
  have factored : osc / (4096 * q) - f / 16 =
      f / 16 / q * (osc / (4096 * (f / 16)) - q) := by field_simp
  rw [factored, abs_mul, abs_of_pos (by positivity)]
  field_simp

/-- Settles O54: `q = presc + 1` is within one half of the ratio it rounds. -/
theorem frequencyIsWithinTheTolerance : Obligations.FrequencyIsWithinTheTolerance := by
  intro cfg f hw hf hl hu asked actual
  have h0 := toNat_pos_of_ne_zero hf
  have quotient : (prescaleByte cfg f).toNat + 1 = prescaleQuotient cfg.oscClockHz f.toNat := by
    have byte := prescaleByte_toNat hl hu
    rw [prescaleUnclamped] at byte
    omega
  have below := prescaleQuotient_le cfg.oscClockHz h0
  have above := lt_prescaleQuotient_add_one cfg.oscClockHz h0
  rw [← quotient] at below above
  push_cast at below above
  calc |actual - asked| / asked
      = |(cfg.oscClockHz : ℚ) / (4096 * asked) - ((prescaleByte cfg f).toNat + 1)| /
          ((prescaleByte cfg f).toNat + 1) :=
        relative_error_eq (by exact_mod_cast h0) (by positivity)
    _ ≤ 1 / 2 / ((prescaleByte cfg f).toNat + 1) := by
        gcongr
        exact abs_le.mpr ⟨by linarith, by linarith⟩
    _ = 1 / (2 * ((prescaleByte cfg f).toNat + 1)) := div_div _ _ _

/-! #### Where the clamp does not act -/

/-- `p` lies between two bounds when the fraction it is the floor of does (rule R172). -/
theorem prescaleUnclamped_mem_iff {osc f lo hi : Nat} (h0 : 0 < f) :
    ((lo : Int) ≤ prescaleUnclamped osc f ∧ prescaleUnclamped osc f ≤ hi) ↔
      (lo + 1) * (256 * f) ≤ osc + 128 * f ∧ osc + 128 * f < (hi + 2) * (256 * f) := by
  have positive : 0 < 256 * f := by omega
  rw [← Nat.le_div_iff_mul_le positive, ← Nat.div_lt_iff_lt_mul positive, prescaleUnclamped,
    prescaleQuotient]
  omega

/-- Settles O55: both bounds are linear in `F` when the parameters are numbers. -/
theorem defaultUnclampedRange : Obligations.DefaultUnclampedRange := by
  rintro cfg f rfl hf
  rw [prescaleUnclamped_mem_iff (toNat_pos_of_ne_zero hf)]
  show (3 + 1) * (256 * f.toNat) ≤ 25000000 + 128 * f.toNat ∧
    25000000 + 128 * f.toNat < (255 + 2) * (256 * f.toNat) ↔ _
  omega

end Sys2Proof.Machine

/-! ### Refusals and FATAL -/

namespace Sys2Proof.Machine

/-- Settles O9: a word that selects no row does not decode, and outside FATAL that is the first check
that fails. -/
theorem illegalWordIsRefused : Obligations.IllegalWordIsRefused := by
  refine ⟨rfl, fun s w rest hw hb hh hf hn => ?_⟩
  obtain ⟨-, illegal, -⟩ := firstFailingCheckIsTheResponse s w rest hw hb hh
  exact illegal hf (decode_none.mpr hn)

/-- No action of any command runs in FATAL (rules R22, R212). -/
theorem runsIn_fatal (i : Instr) (k : Nat) : runsIn i k .fatal = false := by
  cases i with
  | setup a => simp only [runsIn]; split <;> rfl
  | openBus _ | wrreg _ _ | rdreg _ | reset | setfreq _ _ | setch _ _ _ => rfl

/-- A block that meets the invariant runs nothing in FATAL (rule R217). -/
theorem State.Inv.not_busy_of_fatal {s : State} (h : s.Inv) (hf : s.fsm = .fatal) :
    s.busy = false := by
  cases hb : s.busy with
  | false => rfl
  | true =>
    obtain ⟨i, -, -, runs, -⟩ := h.running hb
    rw [hf, runsIn_fatal] at runs
    cases runs

/-- An idle block leaves everything but the environment as it is (rules R84, R240). -/
theorem State.idle_eq (s : State) : ∃ e, s.idle = { s with env := e } := by
  unfold State.idle
  split
  · next e _ => exact ⟨e, rfl⟩
  · exact ⟨s.env, rfl⟩

/-- Settles O42: in FATAL nothing runs, so a step waits, refuses the word on offer or is a hardware
reset. -/
theorem fatalIsLeftOnlyByHardwareReset : Obligations.FatalIsLeftOnlyByHardwareReset := by
  intro s t h hf ht
  obtain ⟨hw, -⟩ := step_cases ht
  have hb := h.not_busy_of_fatal hf
  cases hh : s.host with
  | nil =>
    cases (step_idle hw hb hh).symm.trans ht
    obtain ⟨e, he⟩ := s.idle_eq
    rw [he]
    exact .inl ⟨hf, rfl, rfl, rfl⟩
  | cons input rest =>
    cases input with
    | reset =>
      cases (step_reset hw hh).symm.trans ht
      exact .inr ⟨rest, rfl, rfl⟩
    | offer w =>
      obtain ⟨_, hu, -, -, rfl⟩ := fatalAnswersEveryWord.2 s w rest hw hb hh hf
      cases hu.symm.trans ht
      exact .inl ⟨hf, rfl, rfl, rfl⟩

end Sys2Proof.Machine

/-! ### Hardware reset and the idle block -/

namespace Sys2Proof.Machine

/-- Settles O12: an idle block waits, and without a turn in which time passes waiting changes nothing. -/
theorem idleBlockWaits : Obligations.IdleBlockWaits := by
  intro s hw hb hh ht
  rw [step_idle hw hb hh, State.idle_eq_self ht]

/-- What a command waits for does not depend on what the host does next (rules R27, R71). -/
theorem State.outstanding_withHost (s : State) (host : List HostInput) :
    State.outstanding { s with host := host } = s.outstanding := by
  have request (i : Instr) :
      actionRequest i s.step.toNat { s with host := host } = actionRequest i s.step.toNat s := by
    cases i <;> rfl
  simp only [State.outstanding, request]

/-- Between commands the block waits for nothing. -/
theorem State.outstanding_of_not_busy {s : State} (h : s.busy = false) : s.outstanding = none := by
  simp [State.outstanding, h]

/-- While a command runs the block waits for the action at `step` (rules R27, R71). -/
theorem State.outstanding_of_busy {s : State} {i : Instr} (hb : s.busy = true)
    (hd : decode s.cmd = some i) : s.outstanding = actionRequest i s.step.toNat s := by
  simp [State.outstanding, hb, hd]

/-- An idle block, and SETFREQ at either of its waits, has no bus request outstanding. -/
theorem State.noBusRequest {s : State}
    (h : s.busy = false ∨
      ∃ rs f, decode s.cmd = some (.setfreq rs f) ∧ (s.step = 2 ∨ s.step = 5)) :
    s.outstanding = none ∨ ∃ t, s.outstanding = some (.delay t) := by
  cases hb : s.busy with
  | false => exact .inl (State.outstanding_of_not_busy hb)
  | true =>
    obtain ⟨rs, f, hd, hs⟩ := h.resolve_left (by simp [hb])
    refine .inr ⟨s.cfg.tSettleUs, ?_⟩
    rw [State.outstanding_of_busy hb hd]
    rcases hs with hs | hs <;> rw [hs] <;> rfl

/-- Reset with no bus request outstanding leaves the environment alone (rule R243). -/
theorem State.abandonRequest_of_noBusRequest {s : State}
    (h : s.outstanding = none ∨ ∃ t, s.outstanding = some (.delay t)) :
    s.abandonRequest = s.env := by
  rcases h with h | ⟨t, h⟩ <;> rw [State.abandonRequest, h]

/-- A request that reset cuts short is left with the environment, unless it was a wait (rule R242). -/
theorem State.abandonRequest_cases (s : State) :
    s.abandonRequest = s.env ∨
      ∃ q, s.outstanding = some q ∧ s.abandonRequest = s.env.abandonBus s.cfg q := by
  unfold State.abandonRequest
  split
  · exact .inl rfl
  · exact .inl rfl
  · next q _ hq => exact .inr ⟨q, hq, rfl⟩

/-- The reference device alone either took the request that reset cut short, or never did
(rule R242). -/
theorem Env.Alone.abandonBus_device {cfg : Config} {e : Env} (h : e.Alone cfg) (q : Request) :
    (e.abandonBus cfg q).device = e.device ∨
      (e.abandonBus cfg q).device =
        (e.device.answer cfg (Config.freeByte e.drawn) q).2 := by
  simp only [Env.abandonBus, Env.abandonTurn, h.noScript, h.device, Device.takeTurn,
    Device.foreign_alone h.alone]
  cases Config.freeTaken e.drawn with
  | false => exact .inl rfl
  | true => exact .inr rfl

/-- Once the claim is given up, all that an answer of the reference device leaves behind is what a
write to it stored (rule R81). -/
theorem Device.answer_release (cfg : Config) (draw : Byte) (q : Request) (d : Device) :
    (d.answer cfg draw q).2.release = d.release ∨
      ∃ r v, q = .write cfg.deviceAddr r v ∧
        (d.answer cfg draw q).2.release = (d.store cfg r v).release := by
  cases q with
  | claim a | read a r => simp only [Device.answer]; split <;> exact .inl rfl
  | delay t => exact .inl rfl
  | write a r v =>
    simp only [Device.answer]
    split
    · exact .inl rfl
    · next ha => exact .inr ⟨r, v, by rw [not_not.mp ha], rfl⟩

/-- Reset at the reference device alone changes no register of it, unless a write was outstanding that
took effect (rules R242, R243). -/
theorem State.abandonRequest_release {s : State} (h : s.env.Alone s.cfg) :
    s.abandonRequest.device.release = s.env.device.release ∨
      ∃ r v, s.outstanding = some (.write s.cfg.deviceAddr r v) ∧
        s.abandonRequest.device.release = (s.env.device.store s.cfg r v).release := by
  rcases s.abandonRequest_cases with he | ⟨q, hq, he⟩ <;> rw [he]
  · exact .inl rfl
  · rcases h.abandonBus_device q with hd | hd <;> rw [hd]
    · exact .inl rfl
    · exact hq ▸ (Device.answer_release s.cfg _ q s.env.device).imp_right
        fun ⟨r, v, hw, hs⟩ => ⟨r, v, congrArg some hw, hs⟩

/-- Settles O45: reset releases the claim of the device that `abandonRequest` leaves, which is the
device as it was but for an outstanding write. -/
theorem hardwareResetKeepsTheDevice : Obligations.HardwareResetKeepsTheDevice := by
  intro s rest hw hh
  refine ⟨_, step_reset hw hh, rfl, rfl, rfl, rfl, rfl, fun hn => ?_, fun ht ha hx => ?_⟩
  · have kept : State.abandonRequest { s with host := rest } = s.env :=
      State.abandonRequest_of_noBusRequest (State.noBusRequest (s := { s with host := rest }) hn)
    rw [State.hardwareReset, kept]
    exact ⟨rfl, rfl⟩
  · rw [← s.outstanding_withHost rest]
    exact State.abandonRequest_release (s := { s with host := rest }) ⟨ht, ha, hx⟩

end Sys2Proof.Machine
